-- ==== Sys2Proof/Word.lean ====
section
/-! DEFINITION. The word and byte types of the GKB and its fixed-length byte strings (spec R13, R14). -/

namespace Sys2Proof

/-- A byte of a buffer (R14). -/
abbrev Byte := BitVec 8

/-- A 32-bit register or bus word (R13). -/
abbrev Word := BitVec 32

/-- A byte string of exactly `n` bytes, byte 0 first (R14, R31): what a GKB operand buffer holds. -/
structure Bytes (n : Nat) where
  /-- The bytes in order, byte 0 first. -/
  toList : List Byte
  /-- A buffer has its fixed length. -/
  length_eq : toList.length = n
deriving DecidableEq, Repr

/-- `0^n`, the byte string of `n` zero bytes (R14). -/
def Bytes.zero (n : Nat) : Bytes n := ⟨List.replicate n 0#8, List.length_replicate⟩

end Sys2Proof
end

