-- ==== Sys2Proof/Config.lean ====
section
/-! DEFINITION. What an implementation or a platform fixes and the spec leaves open (spec R11, R404;
93_implementation_defined.md U4, U19). Constants with no body: no proof can see their value. -/

namespace Sys2Proof.Config

/-- How far SCRATCH_BYTES exceeds its minimum (R11, U4). Open: an uninterpreted constant. -/
opaque scratchExtra : Nat

/-- SCRATCH_BYTES, the size of the engine's private memory: at least 128·r·N = 16,777,216 bytes (R11). -/
def scratchBytes : Nat := 16777216 + scratchExtra

/-- The entries of the host parameter NETWORKS besides the Bitcoin main network (R404, D40, U19):
network name to version byte. Open: an uninterpreted constant (log 17). -/
opaque otherNetworks : List (List Char × Byte)

end Sys2Proof.Config
end

