-- ==== Sys2Proof/Syntax.lean ====
section
/-! DEFINITION. The instructions of the GKB: its 16 command words (spec R128, opcode_table.json). -/

namespace Sys2Proof

/-- One constructor per row of spec/opcode_table.json. A command word has no operand field but the
point-encoding bit C of EC_BASEMUL (R121, R122), which the two EC_BASEMUL rows of the table fix. -/
inductive Instr where
  /-- SHA256: digest of VBUF (R160). -/
  | sha256
  /-- SHA256D: double digest of VBUF (R161). -/
  | sha256d
  /-- CHECKSUM: address checksum (R162). -/
  | checksum
  /-- SCRYPT_A: KDF stage a (R220). -/
  | scryptA
  /-- SCRYPT_B: KDF stage b (R221). -/
  | scryptB
  /-- SCRYPT_C: KDF stage c (R222). -/
  | scryptC
  /-- AES_ENC: raw single-block encryption (R270). -/
  | aesEnc
  /-- AES_DEC: raw single-block decryption (R271). -/
  | aesDec
  /-- ENC_MASKED32: EncryptMasked (R272). -/
  | encMasked32
  /-- DEC_MASKED32: DecryptMasked (R273). -/
  | decMasked32
  /-- DEC_MASKED24: DecryptMasked24 (R274). -/
  | decMasked24
  /-- EC_BASEMUL.U: base-point multiplication, uncompressed point, C = 0 (R330, R135). -/
  | ecBasemulU
  /-- EC_BASEMUL.C: base-point multiplication, compressed point, C = 1 (R330, R135). -/
  | ecBasemulC
  /-- MODMUL: multiplication modulo the group order (R331). -/
  | modmul
  /-- FACTORB: the blinding factor from the seed (R332). -/
  | factorb
  /-- ZEROIZE: clear every operand buffer (R390). -/
  | zeroize
deriving DecidableEq, Repr

/-- Every instruction, in the table's order. -/
def Instr.all : List Instr :=
  [.sha256, .sha256d, .checksum, .scryptA, .scryptB, .scryptC, .aesEnc, .aesDec, .encMasked32,
   .decMasked32, .decMasked24, .ecBasemulU, .ecBasemulC, .modmul, .factorb, .zeroize]

end Sys2Proof
end

