-- ==== Sys2Proof/WellFormed.lean ====
section
/-! DEFINITION. Which command words are legal (spec R129, R130): the three checks of the encoding. -/

namespace Sys2Proof

/-- Bits 31:9 of a command word, RSV, which must be 0 (R121). -/
def rsvField (w : Word) : BitVec 23 := w.extractLsb' 9 23

/-- Bit 8 of a command word, C, the point-encoding select of EC_BASEMUL (R121). -/
def pointBit (w : Word) : Bool := w.getLsbD 8

/-- Bits 7:0 of a command word, OP, the opcode (R121). -/
def opField (w : Word) : BitVec 8 := w.extractLsb' 0 8

/-- The 15 opcodes of R128, in the order of the map. -/
def opcodes : List (BitVec 8) :=
  [0x10, 0x11, 0x12, 0x20, 0x21, 0x22, 0x30, 0x31, 0x32, 0x33, 0x34, 0x40, 0x41, 0x42, 0xF0]

/-- The opcode of EC_BASEMUL, the only one that may have C = 1 (R121, R129). -/
def opEcBasemul : BitVec 8 := 0x40

/-- The opcode is assigned (R129, first condition). -/
def opAssigned (w : Word) : Bool := opcodes.contains (opField w)

/-- The reserved bits are zero (R129, second condition). -/
def rsvZero (w : Word) : Bool := rsvField w == 0#23

/-- C is 0 unless the opcode is EC_BASEMUL's (R129, third condition). -/
def pointBitAllowed (w : Word) : Bool := !pointBit w || opField w == opEcBasemul

/-- A legal command word (R129): all three conditions hold. Every other word is illegal (R130). -/
def legalWord (w : Word) : Bool := opAssigned w && rsvZero w && pointBitAllowed w

/-- An instruction as syntax is always well formed: no constructor carries an operand (R122). The
checks of the encoding are on the command word, in `legalWord`. -/
def Instr.wellFormed (_ : Instr) : Bool := true

end Sys2Proof
end

