-- ==== Sys2Proof/Decode.lean ====
section
/-! DEFINITION. The decoder of command words (spec R129), total and rejecting by name, and after it the
encoder (R128). -/

namespace Sys2Proof

/-- Why a command word is illegal (R130). -/
inductive Illegal where
  /-- A bit of RSV[31:9] is not zero. -/
  | reservedBits
  /-- C = 1 with an opcode other than EC_BASEMUL's. -/
  | pointBit
  /-- OP is one of the 241 unassigned opcode values. -/
  | unassignedOpcode
deriving DecidableEq, Repr

/-- The command of an opcode with its C bit (R128), none where the opcode is unassigned. -/
def commandOf (op : BitVec 8) (c : Bool) : Option Instr :=
  if op = 0x10 then some .sha256
  else if op = 0x11 then some .sha256d
  else if op = 0x12 then some .checksum
  else if op = 0x20 then some .scryptA
  else if op = 0x21 then some .scryptB
  else if op = 0x22 then some .scryptC
  else if op = 0x30 then some .aesEnc
  else if op = 0x31 then some .aesDec
  else if op = 0x32 then some .encMasked32
  else if op = 0x33 then some .decMasked32
  else if op = 0x34 then some .decMasked24
  else if op = 0x40 then some (if c then .ecBasemulC else .ecBasemulU)
  else if op = 0x41 then some .modmul
  else if op = 0x42 then some .factorb
  else if op = 0xF0 then some .zeroize
  else none

/-- The decoder of R129, in the order its pseudocode makes the three checks: a command, or the named
reason the word is illegal. -/
def decodeWord (w : Word) : Except Illegal Instr :=
  if rsvField w ≠ 0#23 then .error .reservedBits
  else if pointBit w = true ∧ opField w ≠ opEcBasemul then .error .pointBit
  else match commandOf (opField w) (pointBit w) with
    | some i => .ok i
    | none => .error .unassignedOpcode

/-- The command a word stands for; none where it is illegal (R129, R130). -/
def decode (w : Word) : Option Instr :=
  match decodeWord w with
  | .ok i => some i
  | .error _ => none

/-- The opcode of a command (R128). -/
def opcodeOf : Instr → BitVec 8
  | .sha256 => 0x10
  | .sha256d => 0x11
  | .checksum => 0x12
  | .scryptA => 0x20
  | .scryptB => 0x21
  | .scryptC => 0x22
  | .aesEnc => 0x30
  | .aesDec => 0x31
  | .encMasked32 => 0x32
  | .decMasked32 => 0x33
  | .decMasked24 => 0x34
  | .ecBasemulU => 0x40
  | .ecBasemulC => 0x40
  | .modmul => 0x41
  | .factorb => 0x42
  | .zeroize => 0xF0

/-- The C bit of a command: 1 only for the compressed EC_BASEMUL (R121, R135). -/
def pointBitOf : Instr → Bool
  | .ecBasemulC => true
  | .sha256 | .sha256d | .checksum | .scryptA | .scryptB | .scryptC | .aesEnc | .aesDec
  | .encMasked32 | .decMasked32 | .decMasked24 | .ecBasemulU | .modmul | .factorb | .zeroize => false

/-- The command word of a command (R121, R128): RSV = 0, then C, then OP. -/
def encode (i : Instr) : Word :=
  (0#23 ++ BitVec.ofBool (pointBitOf i)) ++ opcodeOf i

/-- The instruction the decoder reads from an instruction of `nbits` bits whose bits are `w`. A command
word is one 32-bit bus word (R120); bits above `nbits` are 0. -/
def decodeTableWord (nbits w : Nat) : Option Instr := decode (BitVec.ofNat 32 (w % 2 ^ nbits))

end Sys2Proof
end

