-- ==== Sys2Proof/Machine/State.lean ====
section
/-! DEFINITION. The state of the GKB (spec R30 to R63) as plain data, the events that act on it
(R9, R473), and the state after reset (R63, R470). -/

namespace Sys2Proof.Machine

/-- STATUS.ERR, the result code of the last command that ended (R430). Codes 4 to 15 are reserved and
never produced (93_implementation_defined.md U9), so the type has no value for them (log 13). -/
inductive ErrCode where
  /-- 0: the command completed and wrote its outputs, or none has ended. -/
  | none
  /-- 1: the command word is illegal (R431). -/
  | illegal
  /-- 2: an operand length is out of range (R433). -/
  | length
  /-- 3: the scalar operand is out of range (R434). -/
  | scalar
deriving DecidableEq, Repr

/-- One event of the total order of host accesses, completions and resets (R9, R100, R473). -/
inductive Input where
  /-- A host read of the word at a window offset (R85). -/
  | read (off : BitVec 12)
  /-- A host write of a word at a window offset (R86). -/
  | write (off : BitVec 12) (v : Word)
  /-- The engine's completion step, if it is enabled (R383). -/
  | engine
  /-- Reset (R470, R473). -/
  | reset
deriving DecidableEq, Repr

/-- A sparse memory: the listed bytes in strictly rising address order, none of them the value an
unlisted address reads as (`unlistedByte`). -/
abbrev Memory := List Host.Cell

/-- What a byte that SCRATCH does not list reads as: 0, since SCRATCH is all zero after reset and after
every completion (R61, R63, R384). -/
def unlistedByte : Byte := 0#8

/-- The state of the GKB: every element of R30's tuple but the constant ID (R33), and two fields of the
model's own, `inputs` and `rdata`. -/
structure State where
  /-- LASTCMD, the last word written to CMD while idle (R34). -/
  lastcmd : Word
  /-- STATUS.BUSY: 1 from acceptance of a legal command until its completion (R35). -/
  busy : Bool
  /-- STATUS.DONE: a command ended and is not acknowledged (R35, R442). -/
  done : Bool
  /-- STATUS.WBUSY, sticky: a host write was dropped while busy (R35, R96). -/
  wbusy : Bool
  /-- STATUS.ERR, the result code of the last ended command (R35, R430). -/
  err : ErrCode
  /-- IRQ_EN.DONE_IE, the completion interrupt's enable (R36). -/
  doneIe : Bool
  /-- VLEN, the number of valid bytes in VBUF, 0 to 511 as stored (R38). -/
  vlen : BitVec 9
  /-- PUBLEN, the number of valid bytes in PUB, 0 to 127 as stored (R39). -/
  publen : BitVec 7
  /-- KEY, the AES-256 key (R40). -/
  key : Bytes 32
  /-- MASK, the XOR mask (R41). -/
  mask : Bytes 32
  /-- DIN, the cipher input (R42). -/
  din : Bytes 32
  /-- DOUT, the output of the cipher and hash commands and FACTORB's seed (R43). -/
  dout : Bytes 32
  /-- CHK, the address checksum (R44). -/
  chk : Bytes 4
  /-- OSALT, the EC-multiply owner salt (R45). -/
  osalt : Bytes 8
  /-- SCA, scalar register A, big-endian (R46). -/
  sca : Bytes 32
  /-- SCB, scalar register B, big-endian (R47). -/
  scb : Bytes 32
  /-- PUB, a serialized public key (R48). -/
  pub : Bytes 65
  /-- VBUF, the variable-length byte string (R49). -/
  vbuf : Bytes 256
  /-- PEND, the pending command word, internal, meaningful only while BUSY = 1 (R60). -/
  pend : Word
  /-- SCRATCH, the engine's private working memory (R61). -/
  scratch : Memory
  /-- The MODEL's own: the events still to come, first to act first (log 1). -/
  inputs : List Input
  /-- The MODEL's own: the word the last host read returned (log 2). -/
  rdata : Word
deriving DecidableEq, Repr

/-- Why a step stops with a fault. -/
inductive Fault where
  /-- Raised by the completion step when BUSY = 1 and PEND holds an illegal word, which no acceptance
  writes (R380): a state no run from reset reaches, in which the spec gives the engine no command.
  Safe: the model stops (log 5). -/
  | pendIllegal
deriving DecidableEq, Repr

/-- Why a step is refused. -/
inductive Refusal where
  /-- Raised by `exec`'s arm of a command that has no meaning yet. Safe: the model stops. No arm of this
  model raises it. -/
  | notModelled (mnemonic : String)
deriving DecidableEq, Repr

/-- What one step of the GKB answers. -/
abbrev Result := Host.Outcome State Fault Refusal

/-- The machine right after reset (R63, R470): every field the value the spec states; PEND, which the
spec leaves unspecified and lets a model take as 0 (R60, log 3); no event to come and no read yet. -/
def State.reset : State where
  lastcmd := 0#32
  busy := false
  done := false
  wbusy := false
  err := .none
  doneIe := false
  vlen := 0#9
  publen := 0#7
  key := Bytes.zero 32
  mask := Bytes.zero 32
  din := Bytes.zero 32
  dout := Bytes.zero 32
  chk := Bytes.zero 4
  osalt := Bytes.zero 8
  sca := Bytes.zero 32
  scb := Bytes.zero 32
  pub := Bytes.zero 65
  vbuf := Bytes.zero 256
  pend := 0#32
  scratch := []
  inputs := []
  rdata := 0#32

end Sys2Proof.Machine
end

