-- ==== Sys2Proof/Machine/Flags.lean ====
section
/-! DEFINITION. The GKB's flags: STATUS and its fields, IRQ_EN, the irq output, and how they are set and
cleared (spec R35 to R37, R52, R430, R442). -/

namespace Sys2Proof.Machine

/-- The 4-bit code of a result (R430). -/
def errCode : ErrCode → BitVec 4
  | .none => 0
  | .illegal => 1
  | .length => 2
  | .scalar => 3

/-- STATUS as a host reads it (R35, R85): ERR in bits 11:8, WBUSY bit 2, DONE bit 1, BUSY bit 0, the
reserved bits 0. -/
def statusWord (s : State) : Word :=
  0#20 ++ errCode s.err ++ 0#5 ++ BitVec.ofBool s.wbusy ++ BitVec.ofBool s.done ++
    BitVec.ofBool s.busy

/-- IRQ_EN as a host reads it: DONE_IE in bit 0, the reserved bits 0 (R36, R85). -/
def irqEnWord (s : State) : Word := 0#31 ++ BitVec.ofBool s.doneIe

/-- The level output irq: STATUS.DONE and IRQ_EN.DONE_IE (R37, R442). -/
def irq (s : State) : Bool := s.done && s.doneIe

/-- A host write to STATUS (R35, R86): W1C of DONE by bit 1 and of WBUSY by bit 2, nothing else. It is
the host's acknowledgement of a completion, the GKB's counterpart of a return from an exception
(R440). -/
def writeStatus (s : State) (v : Word) : State :=
  { s with
    done := s.done && !v.getLsbD 1
    wbusy := s.wbusy && !v.getLsbD 2 }

/-- A host write to IRQ_EN: DONE_IE takes bit 0 (R36, R86). -/
def writeIrqEn (s : State) (v : Word) : State := { s with doneIe := v.getLsbD 0 }

/-- The trace a dropped write leaves: WBUSY <- 1 (R96). -/
def markDropped (s : State) : State := { s with wbusy := true }

end Sys2Proof.Machine
end

