-- ==== Sys2Proof/Machine/ByteString.lean ====
section
/-! DEFINITION. Byte-string and integer primitives of the spec's notation (R14, R15, R16). -/

namespace Sys2Proof.Machine

/-- `B[i:j)`, the bytes i to j-1 (R14). -/
def slice (b : List Byte) (i j : Nat) : List Byte := (b.drop i).take (j - i)

/-- `A ⊕ B`, the bytewise exclusive-or of two strings (R14). -/
def xorBytes (a b : List Byte) : List Byte := List.zipWith (· ^^^ ·) a b

/-- `BE(B)`, the unsigned integer whose big-endian encoding is B (R15). -/
def beNat (b : List Byte) : Nat := b.foldl (fun acc x => acc * 256 + x.toNat) 0

/-- `BE_n(x)`, the n-byte big-endian encoding of an integer below 256^n (R15). -/
def natBe : Nat → Nat → List Byte
  | 0, _ => []
  | n + 1, x => natBe n (x / 256) ++ [BitVec.ofNat 8 x]

/-- `BE_4` of a 32-bit word (R15, R157). -/
def beWord (w : Word) : List Byte :=
  [w.extractLsb' 24 8, w.extractLsb' 16 8, w.extractLsb' 8 8, w.extractLsb' 0 8]

/-- The 32-bit big-endian word of four bytes (R152). -/
def wordBe (b0 b1 b2 b3 : Byte) : Word := b0 ++ b1 ++ b2 ++ b3

/-- `LE32` of four bytes (R15): the first byte is the least significant. -/
def wordLe (b0 b1 b2 b3 : Byte) : Word := b3 ++ b2 ++ b1 ++ b0

/-- `LE32⁻¹` of a word (R15): the least significant byte first. -/
def leWord (w : Word) : List Byte :=
  [w.extractLsb' 0 8, w.extractLsb' 8 8, w.extractLsb' 16 8, w.extractLsb' 24 8]

/-- The unsigned integer whose little-endian encoding is B (R213). -/
def leNat : List Byte → Nat
  | [] => 0
  | x :: rest => x.toNat + 256 * leNat rest

/-- The big-endian words of a byte string, four bytes each (R152). -/
def wordsBe : List Byte → List Word
  | b0 :: b1 :: b2 :: b3 :: rest => wordBe b0 b1 b2 b3 :: wordsBe rest
  | _ => []

/-- The little-endian words of a byte string, four bytes each (R210). -/
def wordsLe : List Byte → List Word
  | b0 :: b1 :: b2 :: b3 :: rest => wordLe b0 b1 b2 b3 :: wordsLe rest
  | _ => []

/-- `rotl32(x, n)` (R16). -/
def rotl32 (x : Word) (n : Nat) : Word := x.rotateLeft n

/-- `rotr32(x, n)` (R16). -/
def rotr32 (x : Word) (n : Nat) : Word := x.rotateRight n

/-- `ascii(s)`, one byte per character (R14). -/
def ascii (s : List Char) : List Byte := s.map fun c => BitVec.ofNat 8 c.toNat

/-- Cuts a byte string into `n` pieces of `k` bytes each (R152, R212). -/
def chunks (k : Nat) : Nat → List Byte → List (List Byte)
  | 0, _ => []
  | n + 1, b => b.take k :: chunks k n (b.drop k)

/-- `X[0:len l) <- l` on an n-byte buffer (R16): the bytes past the string are unchanged, and a string
longer than the buffer is cut. -/
def overwrite {n : Nat} (x : Bytes n) (l : List Byte) : Bytes n :=
  ⟨(l ++ x.toList.drop l.length).take n, by
    have h := x.length_eq
    simp only [List.length_take, List.length_append, List.length_drop]
    omega⟩

/-- The n-byte buffer holding a string, the bytes past it zero. -/
def bytesOf (n : Nat) (l : List Byte) : Bytes n := overwrite (Bytes.zero n) l

/-- `X[i] <- v` on an n-byte buffer; no effect where i is past its end (R86). -/
def setByte {n : Nat} (x : Bytes n) (i : Nat) (v : Byte) : Bytes n :=
  ⟨x.toList.set i v, by rw [List.length_set, x.length_eq]⟩

/-- `X[i]`, and 0 where i is past the buffer's end (R85). -/
def byteAt {n : Nat} (x : Bytes n) (i : Nat) : Byte := x.toList.getD i 0#8

end Sys2Proof.Machine
end

