-- ==== Sys2Proof/Machine/Operands.lean ====
section
/-! DEFINITION. The operands of the commands: implicit fixed buffers or ranges of them (spec R51, R122),
and the ten buffers by name with their window offsets (R90). -/

namespace Sys2Proof.Machine

/-- `VBUF[0:VLEN)`, the message, address string or passphrase (R49, R51). -/
def vbufBytes (s : State) : List Byte := slice s.vbuf.toList 0 s.vlen.toNat

/-- VLEN is at most 256, VBUF's capacity (R38, R433). -/
def vlenInRange (s : State) : Bool := s.vlen.toNat ≤ 256

/-- `PUB[0:33)`, the compressed passpoint (R51, R222). -/
def passpointBytes (s : State) : List Byte := slice s.pub.toList 0 33

/-- PUBLEN is 33, the only length SCRYPT_C takes (R222, R433). -/
def publenCompressed (s : State) : Bool := s.publen.toNat == 33

/-- `CHK ‖ OSALT`, the 12-byte salt of stage c, checksum first (R216, R222). -/
def stageCSalt (s : State) : List Byte := s.chk.toList ++ s.osalt.toList

/-- `DIN[0:16)`, the block of AES_ENC and AES_DEC (R51). -/
def dinBlock (s : State) : List Byte := slice s.din.toList 0 16

/-- `DIN[0:24)`, the ciphertext of DEC_MASKED24 (R51). -/
def dinCipher24 (s : State) : List Byte := slice s.din.toList 0 24

/-- `DOUT[0:24)`, the seed FACTORB reads (R51, R332). -/
def seedBytes (s : State) : List Byte := slice s.dout.toList 0 24

/-- `BE(SCA)` (R83). -/
def scaNat (s : State) : Nat := beNat s.sca.toList

/-- `BE(SCB)` (R83). -/
def scbNat (s : State) : Nat := beNat s.scb.toList

/-- The ten operand buffers (R40 to R49). -/
inductive Buffer where
  | key | mask | din | dout | chk | osalt | sca | scb | pub | vbuf
deriving DecidableEq, Repr

/-- Every buffer, in window order (R90). -/
def allBuffers : List Buffer :=
  [.key, .mask, .din, .dout, .chk, .osalt, .sca, .scb, .pub, .vbuf]

/-- The window offset of a buffer's byte 0 (R90). -/
def bufferBase : Buffer → Nat
  | .key => 0x040
  | .mask => 0x060
  | .din => 0x080
  | .dout => 0x0A0
  | .chk => 0x0C0
  | .osalt => 0x0C8
  | .sca => 0x0E0
  | .scb => 0x100
  | .pub => 0x140
  | .vbuf => 0x200

/-- The length of a buffer in bytes (R40 to R49). -/
def bufferLen : Buffer → Nat
  | .key => 32
  | .mask => 32
  | .din => 32
  | .dout => 32
  | .chk => 4
  | .osalt => 8
  | .sca => 32
  | .scb => 32
  | .pub => 65
  | .vbuf => 256

/-- The contents of a buffer (R40 to R49). -/
def bufferBytes (s : State) : Buffer → List Byte
  | .key => s.key.toList
  | .mask => s.mask.toList
  | .din => s.din.toList
  | .dout => s.dout.toList
  | .chk => s.chk.toList
  | .osalt => s.osalt.toList
  | .sca => s.sca.toList
  | .scb => s.scb.toList
  | .pub => s.pub.toList
  | .vbuf => s.vbuf.toList

/-- `X[i] <- v` for the buffer of that name; no effect where i is past its end (R86). -/
def writeBufferByte (s : State) (b : Buffer) (i : Nat) (v : Byte) : State :=
  match b with
  | .key => { s with key := setByte s.key i v }
  | .mask => { s with mask := setByte s.mask i v }
  | .din => { s with din := setByte s.din i v }
  | .dout => { s with dout := setByte s.dout i v }
  | .chk => { s with chk := setByte s.chk i v }
  | .osalt => { s with osalt := setByte s.osalt i v }
  | .sca => { s with sca := setByte s.sca i v }
  | .scb => { s with scb := setByte s.scb i v }
  | .pub => { s with pub := setByte s.pub i v }
  | .vbuf => { s with vbuf := setByte s.vbuf i v }

/-- Whether aligned offset `o` is a word of a buffer: o in [b, b + 4·ceil(L/4)) (R85). -/
def bufferCovers (b : Buffer) (o : Nat) : Bool :=
  bufferBase b ≤ o && o < bufferBase b + 4 * ((bufferLen b + 3) / 4)

/-- The buffer an aligned offset belongs to; none at a register or a reserved offset (R90, R91). -/
def bufferAt (o : Nat) : Option Buffer := allBuffers.find? fun b => bufferCovers b o

end Sys2Proof.Machine
end

