-- ==== Sys2Proof/Machine/Ops.lean ====
section
/-! DEFINITION. The shared operations of the GKB: SCRATCH's memory, the issue of a command, the two ends
of a completion (success and result-code error), and reset. -/

namespace Sys2Proof.Machine

/-! ### SCRATCH (R61, R81) -/

/-- The byte of a memory at an address: the listed one, or the value an unlisted byte reads as. -/
def Memory.read (m : Memory) (a : Nat) : Byte :=
  match m.find? fun c => c.1 == a with
  | some c => c.2
  | none => unlistedByte

/-- A byte written; writing the value an unlisted byte reads as removes the entry. -/
def Memory.write : Memory → Nat → Byte → Memory
  | [], a, v => if v = unlistedByte then [] else [(a, v)]
  | c :: rest, a, v =>
    if a < c.1 then (if v = unlistedByte then c :: rest else (a, v) :: c :: rest)
    else if a = c.1 then (if v = unlistedByte then rest else (a, v) :: rest)
    else c :: Memory.write rest a v

/-- The memory whose every byte is 0: what SCRATCH is after reset and after every completion (R61). -/
def Memory.zeroed : Memory := []

/-- The canonical form: addresses strictly rising, and no entry equal to what an unlisted byte reads as. -/
def Memory.wf (m : Memory) : Bool :=
  decide (m.Pairwise fun c d => c.1 < d.1) && m.all fun c => c.2 != unlistedByte

/-- Every listed address exists in SCRATCH (R11, R61). -/
def Memory.inScratch (m : Memory) : Bool := m.all fun c => decide (c.1 < Config.scratchBytes)

/-! ### The end of a command (R383, R384, R436) -/

/-- The state changes of every completion besides its buffer outputs: ERR <- code, SCRATCH all zero,
BUSY <- 0, DONE <- 1 (R383, R384). -/
def endCommand (code : ErrCode) (s : State) : State :=
  { s with err := code, scratch := Memory.zeroed, busy := false, done := true }

/-- `complete()`, the successful end of a command whose buffer outputs are written (R16, R383). -/
def complete (s : State) : Result := .next (endCommand .none s)

/-- `raise Err(code)`, the GKB's exception: the completion ends with STATUS.ERR = code and writes no
buffer (R16, R436). Nothing is saved, no mode changes and control goes nowhere (R439). -/
def raiseErr (code : ErrCode) (s : State) : Result := .next (endCommand code s)

/-- A command over `VBUF[0:VLEN)`: Err(LENGTH) where VLEN > 256, else it completes with its outputs
written (R433). -/
def withVbuf (s : State) (outputs : List Byte → State) : Result :=
  if vlenInRange s then complete (outputs (vbufBytes s)) else raiseErr .length s

/-! ### Issue and acceptance (R380 to R382) -/

/-- The acceptance of a legal command word: PEND <- w, BUSY <- 1 (R380). -/
def accept (s : State) (w : Word) : State := { s with pend := w, busy := true }

/-- The immediate end of an illegal command word: ERR <- ILLEGAL, DONE <- 1, BUSY stays 0 (R382). -/
def endIllegal (s : State) : State := { s with err := .illegal, done := true }

/-- `issue(w)`, reached only with BUSY = 0 (R380). -/
def issue (s : State) (w : Word) : State :=
  let s1 := { s with lastcmd := w, done := false, err := .none }
  match decode w with
  | none => endIllegal s1
  | some _ => accept s1 w

/-! ### Reset (R470, R473) -/

/-- A reset step: every element of the GKB takes its reset value, whatever it was, a running command
abandoned (R470, R472, R473). The events still to come and the last read word are the host's side and
stay (log 6). -/
def resetGkb (s : State) : State := { State.reset with inputs := s.inputs, rdata := s.rdata }

end Sys2Proof.Machine
end

