-- ==== Sys2Proof/Machine/Bus.lean ====
section
/-! DEFINITION. Host accesses to the register window: reads and writes of 32-bit words at a 12-bit byte
offset (spec R80 to R96). -/

namespace Sys2Proof.Machine

/-- ID, a constant at all times: device 0xB38E, command set 1.0 (R33). -/
def idWord : Word := 0xB38E0100

/-- `off and 0xFFC`: offset bits 1:0 are ignored (R85). -/
def alignOffset (off : BitVec 12) : Nat := (off &&& 0xFFC#12).toNat

/-- The bus word at aligned offset `o` of a buffer: byte lane k carries X[o-b+k], and 0 past the
buffer's end (R82, R85, R92). -/
def bufferWord (s : State) (b : Buffer) (o : Nat) : Word :=
  let x := bufferBytes s b
  let i := o - bufferBase b
  wordLe (x.getD i 0#8) (x.getD (i + 1) 0#8) (x.getD (i + 2) 0#8) (x.getD (i + 3) 0#8)

/-- `MemRead(off, 4)` (R85): a read has no side effect on the GKB (R88). The buffer region reads as zero
while BUSY = 1 (R95), reserved offsets at all times (R91). -/
def memRead (s : State) (off : BitVec 12) : Word :=
  let o := alignOffset off
  if o = 0x000 then idWord
  else if o = 0x004 then s.lastcmd
  else if o = 0x008 then statusWord s
  else if o = 0x00C then irqEnWord s
  else if o = 0x010 then s.vlen.setWidth 32
  else if o = 0x014 then s.publen.setWidth 32
  else match bufferAt o with
    | some b => if s.busy then 0#32 else bufferWord s b o
    | none => 0#32

/-- A word written to the buffer word at aligned offset `o`: each byte lane k with o-b+k < L (R86, R92). -/
def writeBufferWord (s : State) (b : Buffer) (o : Nat) (v : Word) : State :=
  let i := o - bufferBase b
  let s := writeBufferByte s b i (v.extractLsb' 0 8)
  let s := writeBufferByte s b (i + 1) (v.extractLsb' 8 8)
  let s := writeBufferByte s b (i + 2) (v.extractLsb' 16 8)
  writeBufferByte s b (i + 3) (v.extractLsb' 24 8)

/-- `MemWrite(off, 4, v)` (R86). Writes to STATUS and IRQ_EN always take effect; every other write while
BUSY = 1 is dropped and sets WBUSY (R96); ID and reserved offsets ignore writes (R33, R91). -/
def memWrite (s : State) (off : BitVec 12) (v : Word) : State :=
  let o := alignOffset off
  if o = 0x008 then writeStatus s v
  else if o = 0x00C then writeIrqEn s v
  else if s.busy then markDropped s
  else if o = 0x004 then issue s v
  else if o = 0x010 then { s with vlen := v.extractLsb' 0 9 }
  else if o = 0x014 then { s with publen := v.extractLsb' 0 7 }
  else match bufferAt o with
    | some b => writeBufferWord s b o v
    | none => s

end Sys2Proof.Machine
end

