-- ==== Sys2Proof/Machine/Aes.lean ====
section
/-! DEFINITION. AES-256 (spec R250 to R263) and the masked functions over it (R265 to R268). -/

namespace Sys2Proof.Machine

/-- `xtime(a)`, multiplication by x in GF(2^8) (R252). -/
def xtime (a : Byte) : Byte := (a <<< 1) ^^^ (if a.getLsbD 7 then 0x1B#8 else 0#8)

/-- `a • b` from the low `n` bits of `a`, by repeated xtime and XOR (R252). -/
def gfMulBits : Nat → Byte → Byte → Byte
  | 0, _, _ => 0#8
  | n + 1, a, b => (if a.getLsbD 0 then b else 0#8) ^^^ gfMulBits n (a >>> 1) (xtime b)

/-- `a • b`, the product in GF(2^8) (R252). -/
def gfMul (a b : Byte) : Byte := gfMulBits 8 a b

/-- SBOX, row by row (R253). -/
def sboxTable : List Byte :=
  [0x63, 0x7c, 0x77, 0x7b, 0xf2, 0x6b, 0x6f, 0xc5, 0x30, 0x01, 0x67, 0x2b, 0xfe, 0xd7, 0xab, 0x76] ++
  [0xca, 0x82, 0xc9, 0x7d, 0xfa, 0x59, 0x47, 0xf0, 0xad, 0xd4, 0xa2, 0xaf, 0x9c, 0xa4, 0x72, 0xc0] ++
  [0xb7, 0xfd, 0x93, 0x26, 0x36, 0x3f, 0xf7, 0xcc, 0x34, 0xa5, 0xe5, 0xf1, 0x71, 0xd8, 0x31, 0x15] ++
  [0x04, 0xc7, 0x23, 0xc3, 0x18, 0x96, 0x05, 0x9a, 0x07, 0x12, 0x80, 0xe2, 0xeb, 0x27, 0xb2, 0x75] ++
  [0x09, 0x83, 0x2c, 0x1a, 0x1b, 0x6e, 0x5a, 0xa0, 0x52, 0x3b, 0xd6, 0xb3, 0x29, 0xe3, 0x2f, 0x84] ++
  [0x53, 0xd1, 0x00, 0xed, 0x20, 0xfc, 0xb1, 0x5b, 0x6a, 0xcb, 0xbe, 0x39, 0x4a, 0x4c, 0x58, 0xcf] ++
  [0xd0, 0xef, 0xaa, 0xfb, 0x43, 0x4d, 0x33, 0x85, 0x45, 0xf9, 0x02, 0x7f, 0x50, 0x3c, 0x9f, 0xa8] ++
  [0x51, 0xa3, 0x40, 0x8f, 0x92, 0x9d, 0x38, 0xf5, 0xbc, 0xb6, 0xda, 0x21, 0x10, 0xff, 0xf3, 0xd2] ++
  [0xcd, 0x0c, 0x13, 0xec, 0x5f, 0x97, 0x44, 0x17, 0xc4, 0xa7, 0x7e, 0x3d, 0x64, 0x5d, 0x19, 0x73] ++
  [0x60, 0x81, 0x4f, 0xdc, 0x22, 0x2a, 0x90, 0x88, 0x46, 0xee, 0xb8, 0x14, 0xde, 0x5e, 0x0b, 0xdb] ++
  [0xe0, 0x32, 0x3a, 0x0a, 0x49, 0x06, 0x24, 0x5c, 0xc2, 0xd3, 0xac, 0x62, 0x91, 0x95, 0xe4, 0x79] ++
  [0xe7, 0xc8, 0x37, 0x6d, 0x8d, 0xd5, 0x4e, 0xa9, 0x6c, 0x56, 0xf4, 0xea, 0x65, 0x7a, 0xae, 0x08] ++
  [0xba, 0x78, 0x25, 0x2e, 0x1c, 0xa6, 0xb4, 0xc6, 0xe8, 0xdd, 0x74, 0x1f, 0x4b, 0xbd, 0x8b, 0x8a] ++
  [0x70, 0x3e, 0xb5, 0x66, 0x48, 0x03, 0xf6, 0x0e, 0x61, 0x35, 0x57, 0xb9, 0x86, 0xc1, 0x1d, 0x9e] ++
  [0xe1, 0xf8, 0x98, 0x11, 0x69, 0xd9, 0x8e, 0x94, 0x9b, 0x1e, 0x87, 0xe9, 0xce, 0x55, 0x28, 0xdf] ++
  [0x8c, 0xa1, 0x89, 0x0d, 0xbf, 0xe6, 0x42, 0x68, 0x41, 0x99, 0x2d, 0x0f, 0xb0, 0x54, 0xbb, 0x16]

/-- INV_SBOX, row by row (R261). -/
def invSboxTable : List Byte :=
  [0x52, 0x09, 0x6a, 0xd5, 0x30, 0x36, 0xa5, 0x38, 0xbf, 0x40, 0xa3, 0x9e, 0x81, 0xf3, 0xd7, 0xfb] ++
  [0x7c, 0xe3, 0x39, 0x82, 0x9b, 0x2f, 0xff, 0x87, 0x34, 0x8e, 0x43, 0x44, 0xc4, 0xde, 0xe9, 0xcb] ++
  [0x54, 0x7b, 0x94, 0x32, 0xa6, 0xc2, 0x23, 0x3d, 0xee, 0x4c, 0x95, 0x0b, 0x42, 0xfa, 0xc3, 0x4e] ++
  [0x08, 0x2e, 0xa1, 0x66, 0x28, 0xd9, 0x24, 0xb2, 0x76, 0x5b, 0xa2, 0x49, 0x6d, 0x8b, 0xd1, 0x25] ++
  [0x72, 0xf8, 0xf6, 0x64, 0x86, 0x68, 0x98, 0x16, 0xd4, 0xa4, 0x5c, 0xcc, 0x5d, 0x65, 0xb6, 0x92] ++
  [0x6c, 0x70, 0x48, 0x50, 0xfd, 0xed, 0xb9, 0xda, 0x5e, 0x15, 0x46, 0x57, 0xa7, 0x8d, 0x9d, 0x84] ++
  [0x90, 0xd8, 0xab, 0x00, 0x8c, 0xbc, 0xd3, 0x0a, 0xf7, 0xe4, 0x58, 0x05, 0xb8, 0xb3, 0x45, 0x06] ++
  [0xd0, 0x2c, 0x1e, 0x8f, 0xca, 0x3f, 0x0f, 0x02, 0xc1, 0xaf, 0xbd, 0x03, 0x01, 0x13, 0x8a, 0x6b] ++
  [0x3a, 0x91, 0x11, 0x41, 0x4f, 0x67, 0xdc, 0xea, 0x97, 0xf2, 0xcf, 0xce, 0xf0, 0xb4, 0xe6, 0x73] ++
  [0x96, 0xac, 0x74, 0x22, 0xe7, 0xad, 0x35, 0x85, 0xe2, 0xf9, 0x37, 0xe8, 0x1c, 0x75, 0xdf, 0x6e] ++
  [0x47, 0xf1, 0x1a, 0x71, 0x1d, 0x29, 0xc5, 0x89, 0x6f, 0xb7, 0x62, 0x0e, 0xaa, 0x18, 0xbe, 0x1b] ++
  [0xfc, 0x56, 0x3e, 0x4b, 0xc6, 0xd2, 0x79, 0x20, 0x9a, 0xdb, 0xc0, 0xfe, 0x78, 0xcd, 0x5a, 0xf4] ++
  [0x1f, 0xdd, 0xa8, 0x33, 0x88, 0x07, 0xc7, 0x31, 0xb1, 0x12, 0x10, 0x59, 0x27, 0x80, 0xec, 0x5f] ++
  [0x60, 0x51, 0x7f, 0xa9, 0x19, 0xb5, 0x4a, 0x0d, 0x2d, 0xe5, 0x7a, 0x9f, 0x93, 0xc9, 0x9c, 0xef] ++
  [0xa0, 0xe0, 0x3b, 0x4d, 0xae, 0x2a, 0xf5, 0xb0, 0xc8, 0xeb, 0xbb, 0x3c, 0x83, 0x53, 0x99, 0x61] ++
  [0x17, 0x2b, 0x04, 0x7e, 0xba, 0x77, 0xd6, 0x26, 0xe1, 0x69, 0x14, 0x63, 0x55, 0x21, 0x0c, 0x7d]

/-- `SBOX[b]` (R253). -/
def sbox (b : Byte) : Byte := sboxTable.getD b.toNat 0

/-- `INV_SBOX[b]` (R261). -/
def invSbox (b : Byte) : Byte := invSboxTable.getD b.toNat 0

/-- The AES state of 16 bytes from its entries `s[row, col]`: byte i is `s[i mod 4, i div 4]` (R251). -/
def aesState (entry : Nat → Nat → Byte) : List Byte :=
  (List.range 16).map fun i => entry (i % 4) (i / 4)

/-- `s[row, col]` of an AES state (R251). -/
def aesEntry (s : List Byte) (row col : Nat) : Byte := s.getD (row + 4 * col) 0

/-- SubBytes (R253). -/
def subBytes (s : List Byte) : List Byte := s.map sbox

/-- InvSubBytes (R261). -/
def invSubBytes (s : List Byte) : List Byte := s.map invSbox

/-- ShiftRows: `s'[r, c] = s[r, (c + r) mod 4]` (R256). -/
def shiftRows (s : List Byte) : List Byte :=
  aesState fun r c => aesEntry s r ((c + r) % 4)

/-- InvShiftRows: `s'[r, (c + r) mod 4] = s[r, c]`, so `s'[r, c] = s[r, (c - r) mod 4]` (R260). -/
def invShiftRows (s : List Byte) : List Byte :=
  aesState fun r c => aesEntry s r ((c + 4 - r) % 4)

/-- The matrix of MixColumns, row by row (R257). -/
def mixMatrix : List (List Byte) := [[2, 3, 1, 1], [1, 2, 3, 1], [1, 1, 2, 3], [3, 1, 1, 2]]

/-- The matrix of InvMixColumns, row by row (R262). -/
def invMixMatrix : List (List Byte) :=
  [[14, 11, 13, 9], [9, 14, 11, 13], [13, 9, 14, 11], [11, 13, 9, 14]]

/-- One entry of a matrix of multipliers. -/
def matrixEntry (m : List (List Byte)) (r k : Nat) : Byte := (m.getD r []).getD k 0

/-- Each column replaced by the matrix times the column, in GF(2^8) (R257, R262). -/
def mixWith (m : List (List Byte)) (s : List Byte) : List Byte :=
  aesState fun r c =>
    gfMul (matrixEntry m r 0) (aesEntry s 0 c) ^^^ gfMul (matrixEntry m r 1) (aesEntry s 1 c) ^^^
      gfMul (matrixEntry m r 2) (aesEntry s 2 c) ^^^ gfMul (matrixEntry m r 3) (aesEntry s 3 c)

/-- MixColumns (R257). -/
def mixColumns (s : List Byte) : List Byte := mixWith mixMatrix s

/-- InvMixColumns (R262). -/
def invMixColumns (s : List Byte) : List Byte := mixWith invMixMatrix s

/-- The round constants Rcon[1..7], at positions 1 to 7 (R255). -/
def rcon : List Byte := [0x00, 0x01, 0x02, 0x04, 0x08, 0x10, 0x20, 0x40]

/-- `RotWord([a0,a1,a2,a3]) = [a1,a2,a3,a0]` (R254). -/
def rotWord (w : List Byte) : List Byte := w.drop 1 ++ w.take 1

/-- `SubWord`: SBOX on each of the four bytes (R254). -/
def subWord (w : List Byte) : List Byte := w.map sbox

/-- Key word i from the words before it, for i in [8, 60) (R254). -/
def keyWord (ws : List (List Byte)) (i : Nat) : List Byte :=
  let t := ws.getD (i - 1) []
  let t' :=
    if i % 8 = 0 then xorBytes (subWord (rotWord t)) [rcon.getD (i / 8) 0, 0, 0, 0]
    else if i % 8 = 4 then subWord t
    else t
  xorBytes (ws.getD (i - 8) []) t'

/-- The 60 key words w[0..59] of a 32-byte key (R254). -/
def expandKey (k : List Byte) : List (List Byte) :=
  (List.range' 8 52).foldl (fun ws i => ws ++ [keyWord ws i]) (chunks 4 8 k)

/-- AddRoundKey(r): `s[row, c] <- s[row, c] xor w[4r+c][row]` (R258). -/
def addRoundKey (ws : List (List Byte)) (r : Nat) (s : List Byte) : List Byte :=
  aesState fun row c => aesEntry s row c ^^^ (ws.getD (4 * r + c) []).getD row 0

/-- A middle round of the cipher: SubBytes, ShiftRows, MixColumns, AddRoundKey(r) (R259). -/
def encRound (ws : List (List Byte)) (s : List Byte) (r : Nat) : List Byte :=
  addRoundKey ws r (mixColumns (shiftRows (subBytes s)))

/-- A middle round of the inverse cipher: InvShiftRows, InvSubBytes, AddRoundKey(r), InvMixColumns
(R263). -/
def decRound (ws : List (List Byte)) (s : List Byte) (r : Nat) : List Byte :=
  invMixColumns (addRoundKey ws r (invSubBytes (invShiftRows s)))

/-- `AES256_Enc(K, P)` (R259): no MixColumns in round 14. -/
def aes256Enc (k p : List Byte) : List Byte :=
  let ws := expandKey k
  let s := (List.range' 1 13).foldl (encRound ws) (addRoundKey ws 0 p)
  addRoundKey ws 14 (shiftRows (subBytes s))

/-- `AES256_Dec(K, C)` (R263): rounds 13 down to 1. -/
def aes256Dec (k c : List Byte) : List Byte :=
  let ws := expandKey k
  let s := (List.range' 1 13).reverse.foldl (decRound ws) (addRoundKey ws 14 c)
  addRoundKey ws 0 (invSubBytes (invShiftRows s))

/-- EncryptMasked: XOR with the mask first, then encrypt each half independently (R265). -/
def encryptMasked (p m k : List Byte) : List Byte :=
  let q := xorBytes p m
  aes256Enc k (slice q 0 16) ++ aes256Enc k (slice q 16 32)

/-- DecryptMasked: decrypt each half independently, then XOR with the mask (R266). -/
def decryptMasked (c m k : List Byte) : List Byte :=
  xorBytes (aes256Dec k (slice c 0 16) ++ aes256Dec k (slice c 16 32)) m

/-- DecryptMasked24 (R267): `c[8:24)` is decrypted first, and the second decryption depends on it. -/
def decryptMasked24 (c m k : List Byte) : List Byte :=
  let x := xorBytes (aes256Dec k (slice c 8 24)) (slice m 16 32)
  let t := slice c 0 8 ++ slice x 0 8
  let y := xorBytes (aes256Dec k t) (slice m 0 16)
  y ++ slice x 8 16

/-- EncryptMasked24, the inverse of DecryptMasked24 (R268). Informative: no command computes it (R131). -/
def encryptMasked24 (s m k : List Byte) : List Byte :=
  let e1 := aes256Enc k (xorBytes (slice s 0 16) (slice m 0 16))
  let e2 := aes256Enc k (xorBytes (slice e1 8 16 ++ slice s 16 24) (slice m 16 32))
  slice e1 0 8 ++ e2

end Sys2Proof.Machine
end

