-- ==== Sys2Proof/Machine/Cipher.lean ====
section
/-! DEFINITION. The meanings of the block-cipher family: AES_ENC, AES_DEC, ENC_MASKED32, DEC_MASKED32,
DEC_MASKED24 (spec R270 to R274). None of them can fail (R435). -/

namespace Sys2Proof.Machine

/-- The output of a cipher command: `DOUT[0:len l) <- l`, the bytes past it unchanged (R270, R274). -/
def writeDout (s : State) (l : List Byte) : State := { s with dout := overwrite s.dout l }

/-- AES_ENC (R270): DOUT[0:16) <- AES256_Enc(KEY, DIN[0:16)). -/
def execAesEnc (s : State) : Result :=
  complete (writeDout s (aes256Enc s.key.toList (dinBlock s)))

/-- AES_DEC (R271): DOUT[0:16) <- AES256_Dec(KEY, DIN[0:16)). -/
def execAesDec (s : State) : Result :=
  complete (writeDout s (aes256Dec s.key.toList (dinBlock s)))

/-- ENC_MASKED32 (R272): DOUT <- EncryptMasked(DIN, MASK, KEY). -/
def execEncMasked32 (s : State) : Result :=
  complete (writeDout s (encryptMasked s.din.toList s.mask.toList s.key.toList))

/-- DEC_MASKED32 (R273): DOUT <- DecryptMasked(DIN, MASK, KEY). -/
def execDecMasked32 (s : State) : Result :=
  complete (writeDout s (decryptMasked s.din.toList s.mask.toList s.key.toList))

/-- DEC_MASKED24 (R274): DOUT[0:24) <- DecryptMasked24(DIN[0:24), MASK, KEY). -/
def execDecMasked24 (s : State) : Result :=
  complete (writeDout s (decryptMasked24 (dinCipher24 s) s.mask.toList s.key.toList))

end Sys2Proof.Machine
end

