-- ==== Sys2Proof/Machine/Control.lean ====
section
/-! DEFINITION. The meaning of the control command ZEROIZE (spec R390). -/

namespace Sys2Proof.Machine

/-- Every operand buffer and both lengths zero (R390). -/
def clearBuffers (s : State) : State :=
  { s with
    key := Bytes.zero 32
    mask := Bytes.zero 32
    din := Bytes.zero 32
    dout := Bytes.zero 32
    chk := Bytes.zero 4
    osalt := Bytes.zero 8
    sca := Bytes.zero 32
    scb := Bytes.zero 32
    pub := Bytes.zero 65
    vbuf := Bytes.zero 256
    vlen := 0#9
    publen := 0#7 }

/-- ZEROIZE (R390): every buffer, VLEN and PUBLEN cleared. -/
def execZeroize (s : State) : Result := complete (clearBuffers s)

end Sys2Proof.Machine
end

