-- ==== Sys2Proof/Machine/Curve.lean ====
section
/-! DEFINITION. secp256k1: the field, the group law, scalar multiplication, SEC 1 serialization and
arithmetic modulo the group order (spec R320 to R325). -/

namespace Sys2Proof.Machine

/-- The field prime p = 2^256 - 2^32 - 977 (R320). -/
def curveP : Nat := 0xFFFFFFFFFFFFFFFFFFFFFFFFFFFFFFFFFFFFFFFFFFFFFFFFFFFFFFFEFFFFFC2F

/-- The group order n (R321). -/
def curveN : Nat := 0xFFFFFFFFFFFFFFFFFFFFFFFFFFFFFFFEBAAEDCE6AF48A03BBFD25E8CD0364141

/-- The base point's x coordinate (R321). -/
def baseX : Nat := 0x79BE667EF9DCBBAC55A06295CE870B07029BFCDB2DCE28D959F2815B16F81798

/-- The base point's y coordinate (R321). -/
def baseY : Nat := 0x483ADA7726A3C4655DA4FBFC0E1108A8FD17B448A68554199C47D08FFB10D4B8

/-- A point of E ∪ {O} (R322); coordinates are integers in [0, p) (R320). -/
inductive Point where
  /-- O, the point at infinity and the identity. -/
  | infinity
  /-- The point (x, y). -/
  | affine (x y : Nat)
deriving DecidableEq, Repr

/-- The base point G (R321). -/
def basePoint : Point := .affine baseX baseY

/-- `a - b mod p` for integers a and b (R322). -/
def fieldSub (a b : Nat) : Nat := (a + (curveP - b % curveP)) % curveP

/-- `b^e mod m` by square and multiply over the low `bits` bits of `e`. -/
def powModBits (m : Nat) : Nat → Nat → Nat → Nat
  | 0, _, _ => 1 % m
  | bits + 1, b, e =>
    let rest := powModBits m bits (b * b % m) (e / 2)
    if e % 2 = 1 then b * rest % m else rest

/-- `z^(p-2) mod p`, the inverse of z modulo p (R322). The exponent has 256 bits. -/
def fieldInv (z : Nat) : Nat := powModBits curveP 256 z (curveP - 2)

/-- `-(x, y) = (x, p - y mod p)`; O is its own negative (R322). -/
def pointNeg : Point → Point
  | .infinity => .infinity
  | .affine x y => .affine x ((curveP - y) % curveP)

/-- The slope λ of the sum of two affine points that are not negatives of each other (R322): the chord
where the x coordinates differ, else the tangent (log 10). -/
def slope (x1 y1 x2 y2 : Nat) : Nat :=
  if x1 = x2 then 3 * (x1 * x1) * fieldInv (2 * y1) % curveP
  else fieldSub y2 y1 * fieldInv (fieldSub x2 x1) % curveP

/-- The group law on E ∪ {O} (R322). -/
def pointAdd : Point → Point → Point
  | .infinity, q => q
  | q, .infinity => q
  | .affine x1 y1, .affine x2 y2 =>
    if x1 = x2 ∧ y2 = (curveP - y1) % curveP then .infinity
    else
      let lam := slope x1 y1 x2 y2
      let x3 := fieldSub (fieldSub (lam * lam) x1) x2
      .affine x3 (fieldSub (lam * fieldSub x1 x3) y1)

/-- `k·Q` by its definition: Q added to itself k times, and O for k = 0 (R323). -/
def pointMulRepeated (q : Point) : Nat → Point
  | 0 => .infinity
  | k + 1 => pointAdd (pointMulRepeated q k) q

/-- `k·Q` by double and add over the low `bits` bits of k. Only the result of a scalar multiplication
is architectural, not its method (R323, log 9). -/
def pointMulBits : Nat → Nat → Point → Point
  | 0, _, _ => .infinity
  | bits + 1, k, q =>
    let rest := pointMulBits bits (k / 2) (pointAdd q q)
    if k % 2 = 1 then pointAdd q rest else rest

/-- `k·G` for a 256-bit integer k (R323). -/
def baseMul (k : Nat) : Point := pointMulBits 256 k basePoint

/-- The curve equation y^2 = x^3 + 7 with reduced coordinates; O is on E ∪ {O} (R320, R322). -/
def onCurve : Point → Bool
  | .infinity => true
  | .affine x y => x < curveP && y < curveP && y * y % curveP == (x * x * x + 7) % curveP

/-- `SerC(Q)`, 33 bytes for Q ≠ O (R324). -/
def serializeCompressed : Point → List Byte
  | .infinity => []
  | .affine x y => natBe 1 (0x02 + y % 2) ++ natBe 32 x

/-- `SerU(Q)`, 65 bytes for Q ≠ O (R324). -/
def serializeUncompressed : Point → List Byte
  | .infinity => []
  | .affine x y => 0x04#8 :: natBe 32 x ++ natBe 32 y

/-- `mulmod_n(a, b) = (a · b) mod n` (R325). The product is exact. -/
def mulModN (a b : Nat) : Nat := a * b % curveN

/-- A scalar in the range EC_BASEMUL accepts: 1 ≤ k < n (R330, R434). -/
def scalarInRange (k : Nat) : Bool := 1 ≤ k && k < curveN

end Sys2Proof.Machine
end

