-- ==== Sys2Proof/Machine/Sha256.lean ====
section
/-! DEFINITION. SHA-256 and its double form (spec R150 to R158). -/

namespace Sys2Proof.Machine

/-- `Ch(x,y,z)` (R153). -/
def shaCh (x y z : Word) : Word := (x &&& y) ^^^ (~~~x &&& z)

/-- `Maj(x,y,z)` (R153). -/
def shaMaj (x y z : Word) : Word := (x &&& y) ^^^ (x &&& z) ^^^ (y &&& z)

/-- `Σ0(x)` (R153). -/
def shaBig0 (x : Word) : Word := rotr32 x 2 ^^^ rotr32 x 13 ^^^ rotr32 x 22

/-- `Σ1(x)` (R153). -/
def shaBig1 (x : Word) : Word := rotr32 x 6 ^^^ rotr32 x 11 ^^^ rotr32 x 25

/-- `σ0(x)` (R153). -/
def shaSmall0 (x : Word) : Word := rotr32 x 7 ^^^ rotr32 x 18 ^^^ (x >>> 3)

/-- `σ1(x)` (R153). -/
def shaSmall1 (x : Word) : Word := rotr32 x 17 ^^^ rotr32 x 19 ^^^ (x >>> 10)

/-- The round constants K[0..63], row j holding K[8j..8j+7] (R154). -/
def shaK : List Word :=
  [0x428a2f98, 0x71374491, 0xb5c0fbcf, 0xe9b5dba5, 0x3956c25b, 0x59f111f1, 0x923f82a4, 0xab1c5ed5] ++
  [0xd807aa98, 0x12835b01, 0x243185be, 0x550c7dc3, 0x72be5d74, 0x80deb1fe, 0x9bdc06a7, 0xc19bf174] ++
  [0xe49b69c1, 0xefbe4786, 0x0fc19dc6, 0x240ca1cc, 0x2de92c6f, 0x4a7484aa, 0x5cb0a9dc, 0x76f988da] ++
  [0x983e5152, 0xa831c66d, 0xb00327c8, 0xbf597fc7, 0xc6e00bf3, 0xd5a79147, 0x06ca6351, 0x14292967] ++
  [0x27b70a85, 0x2e1b2138, 0x4d2c6dfc, 0x53380d13, 0x650a7354, 0x766a0abb, 0x81c2c92e, 0x92722c85] ++
  [0xa2bfe8a1, 0xa81a664b, 0xc24b8b70, 0xc76c51a3, 0xd192e819, 0xd6990624, 0xf40e3585, 0x106aa070] ++
  [0x19a4c116, 0x1e376c08, 0x2748774c, 0x34b0bcb5, 0x391c0cb3, 0x4ed8aa4a, 0x5b9cca4f, 0x682e6ff3] ++
  [0x748f82ee, 0x78a5636f, 0x84c87814, 0x8cc70208, 0x90befffa, 0xa4506ceb, 0xbef9a3f7, 0xc67178f2]

/-- The eight words of a SHA-256 chaining value, or its working variables a to h. -/
structure Sha8 where
  a : Word
  b : Word
  c : Word
  d : Word
  e : Word
  f : Word
  g : Word
  h : Word
deriving DecidableEq, Repr

/-- The initial hash value H^(0) (R155). -/
def shaInit : Sha8 where
  a := 0x6a09e667
  b := 0xbb67ae85
  c := 0x3c6ef372
  d := 0xa54ff53a
  e := 0x510e527f
  f := 0x9b05688c
  g := 0x1f83d9ab
  h := 0x5be0cd19

/-- `M' = M ‖ 0x80 ‖ 0^z ‖ BE_8(L)` with z = (55 - len(M)) mod 64 and L = 8·len(M) (R151). The
non-negative remainder of 55 - len(M) is written (55 + 63·len(M)) mod 64. -/
def shaPad (m : List Byte) : List Byte :=
  m ++ [0x80#8] ++ List.replicate ((55 + 63 * m.length) % 64) 0#8 ++ natBe 8 (8 * m.length)

/-- Word t of the message schedule from the words before it (R156). -/
def shaNextWord (ws : List Word) (t : Nat) : Word :=
  shaSmall1 (ws.getD (t - 2) 0) + ws.getD (t - 7) 0 + shaSmall0 (ws.getD (t - 15) 0) +
    ws.getD (t - 16) 0

/-- The message schedule W_0 to W_63 of a block's 16 words: W_t for t in [16, 64) (R156). -/
def shaSchedule (ws : List Word) : List Word :=
  (List.range' 16 48).foldl (fun acc t => acc ++ [shaNextWord acc t]) ws

/-- One round, on the round constant and the schedule word of that round (R156). -/
def shaRound (s : Sha8) (kw : Word × Word) : Sha8 :=
  let t1 := s.h + shaBig1 s.e + shaCh s.e s.f s.g + kw.1 + kw.2
  let t2 := shaBig0 s.a + shaMaj s.a s.b s.c
  { a := t1 + t2, b := s.a, c := s.b, d := s.c, e := s.d + t1, f := s.e, g := s.f, h := s.g }

/-- The word-by-word sum that ends a block (R156). -/
def shaAdd (x y : Sha8) : Sha8 where
  a := x.a + y.a
  b := x.b + y.b
  c := x.c + y.c
  d := x.d + y.d
  e := x.e + y.e
  f := x.f + y.f
  g := x.g + y.g
  h := x.h + y.h

/-- The compression of one 64-byte block (R156). -/
def shaCompress (s : Sha8) (block : List Byte) : Sha8 :=
  shaAdd s ((shaK.zip (shaSchedule (wordsBe block))).foldl shaRound s)

/-- `BE_4(H[0]) ‖ ... ‖ BE_4(H[7])` (R157). -/
def shaOutput (s : Sha8) : List Byte :=
  beWord s.a ++ beWord s.b ++ beWord s.c ++ beWord s.d ++
    beWord s.e ++ beWord s.f ++ beWord s.g ++ beWord s.h

/-- `SHA256(M)` (R150): the blocks of the padded message compressed in order from H^(0). -/
def sha256 (m : List Byte) : List Byte :=
  let p := shaPad m
  shaOutput ((chunks 64 (p.length / 64) p).foldl shaCompress shaInit)

/-- `SHA256D(M) = SHA256(SHA256(M))` (R158). -/
def sha256d (m : List Byte) : List Byte := sha256 (sha256 m)

end Sys2Proof.Machine
end

