-- ==== Sys2Proof/Machine/Ec.lean ====
section
/-! DEFINITION. The meanings of the elliptic-curve family: EC_BASEMUL.U, EC_BASEMUL.C, MODMUL, FACTORB
(spec R330 to R332). -/

namespace Sys2Proof.Machine

/-- EC_BASEMUL in either form: Err(SCALAR) where k = BE(SCA) is 0 or k ≥ n, else PUB takes the
serialized k·G, its tail zero, and PUBLEN the form's length (R330). -/
def ecBasemul (serialize : Point → List Byte) (len : BitVec 7) (s : State) : Result :=
  if scalarInRange (scaNat s) then
    complete { s with pub := bytesOf 65 (serialize (baseMul (scaNat s))), publen := len }
  else raiseErr .scalar s

/-- EC_BASEMUL.U, C = 0 (R330): PUB[0:65) <- SerU(k·G), PUBLEN <- 65. -/
def execEcBasemulU (s : State) : Result := ecBasemul serializeUncompressed 65#7 s

/-- EC_BASEMUL.C, C = 1 (R330): PUB[0:33) <- SerC(k·G), PUB[33:65) <- 0^32, PUBLEN <- 33. -/
def execEcBasemulC (s : State) : Result := ecBasemul serializeCompressed 33#7 s

/-- MODMUL (R331): SCA <- BE_32(mulmod_n(BE(SCA), BE(SCB))). -/
def execModmul (s : State) : Result :=
  complete { s with sca := bytesOf 32 (natBe 32 (mulModN (scaNat s) (scbNat s))) }

/-- FACTORB (R332): SCB <- SHA256D(DOUT[0:24)). -/
def execFactorb (s : State) : Result :=
  complete { s with scb := bytesOf 32 (sha256d (seedBytes s)) }

end Sys2Proof.Machine
end

