-- ==== Sys2Proof/Machine/Hash.lean ====
section
/-! DEFINITION. The meanings of the hash family: SHA256, SHA256D, CHECKSUM (spec R160 to R162). -/

namespace Sys2Proof.Machine

/-- SHA256 (R160): DOUT <- SHA256(VBUF[0:VLEN)). -/
def execSha256 (s : State) : Result :=
  withVbuf s fun m => { s with dout := bytesOf 32 (sha256 m) }

/-- SHA256D (R161): DOUT <- SHA256D(VBUF[0:VLEN)). -/
def execSha256d (s : State) : Result :=
  withVbuf s fun m => { s with dout := bytesOf 32 (sha256d m) }

/-- CHECKSUM (R162): CHK <- SHA256D(VBUF[0:VLEN))[0:4). DOUT is not written. -/
def execChecksum (s : State) : Result :=
  withVbuf s fun m => { s with chk := bytesOf 4 (slice (sha256d m) 0 4) }

end Sys2Proof.Machine
end

