-- ==== Sys2Proof/Machine/Scrypt.lean ====
section
/-! DEFINITION. HMAC, PBKDF2, Salsa20/8, BlockMix, ROMix and scrypt (spec R200 to R216). -/

namespace Sys2Proof.Machine

/-- `K0`, the HMAC key brought to 64 bytes (R200). -/
def hmacKey (k : List Byte) : List Byte :=
  let k1 := if 64 < k.length then sha256 k else k
  k1 ++ List.replicate (64 - k1.length) 0#8

/-- `HMAC(K, m)` with SHA-256 (R200). -/
def hmac (k m : List Byte) : List Byte :=
  let k0 := hmacKey k
  sha256 (xorBytes k0 (List.replicate 64 0x5c#8) ++
    sha256 (xorBytes k0 (List.replicate 64 0x36#8) ++ m))

/-- The `c - 1` further rounds of a PBKDF2 block: U <- HMAC(P, U); T <- T ⊕ U (R201). -/
def pbkdf2Rounds (p : List Byte) : Nat → List Byte → List Byte → List Byte
  | 0, _, t => t
  | n + 1, u, t =>
    let u' := hmac p u
    pbkdf2Rounds p n u' (xorBytes t u')

/-- `T_i`, block i of PBKDF2 (R201). -/
def pbkdf2Block (p s : List Byte) (c i : Nat) : List Byte :=
  let u := hmac p (s ++ natBe 4 i)
  pbkdf2Rounds p (c - 1) u u

/-- `PBKDF2(P, S, c, dkLen)` with HMAC-SHA-256 (R201). -/
def pbkdf2 (p s : List Byte) (c dkLen : Nat) : List Byte :=
  (((List.range' 1 ((dkLen + 31) / 32)).map (pbkdf2Block p s c)).flatten).take dkLen

/-- The 32 statements of a Salsa20 double round in the order written (R210): `(t, a, b, k)` stands for
`x[t] ^= R(x[a] + x[b], k)`. -/
def salsaStatements : List (Nat × Nat × Nat × Nat) :=
  [(4, 0, 12, 7), (8, 4, 0, 9), (12, 8, 4, 13), (0, 12, 8, 18)] ++
  [(9, 5, 1, 7), (13, 9, 5, 9), (1, 13, 9, 13), (5, 1, 13, 18)] ++
  [(14, 10, 6, 7), (2, 14, 10, 9), (6, 2, 14, 13), (10, 6, 2, 18)] ++
  [(3, 15, 11, 7), (7, 3, 15, 9), (11, 7, 3, 13), (15, 11, 7, 18)] ++
  [(1, 0, 3, 7), (2, 1, 0, 9), (3, 2, 1, 13), (0, 3, 2, 18)] ++
  [(6, 5, 4, 7), (7, 6, 5, 9), (4, 7, 6, 13), (5, 4, 7, 18)] ++
  [(11, 10, 9, 7), (8, 11, 10, 9), (9, 8, 11, 13), (10, 9, 8, 18)] ++
  [(12, 15, 14, 7), (13, 12, 15, 9), (14, 13, 12, 13), (15, 14, 13, 18)]

/-- One statement of R210 on the 16 words. -/
def salsaStatement (x : List Word) (q : Nat × Nat × Nat × Nat) : List Word :=
  x.set q.1 (x.getD q.1 0 ^^^ rotl32 (x.getD q.2.1 0 + x.getD q.2.2.1 0) q.2.2.2)

/-- One double round: the 32 statements, each using what the ones before left (R210). -/
def salsaDoubleRound (x : List Word) : List Word := salsaStatements.foldl salsaStatement x

/-- `Salsa20/8(B)` on 64 bytes (R210): four double rounds, then the word-by-word sum with the input. -/
def salsa208 (b : List Byte) : List Byte :=
  let x := wordsLe b
  let y := salsaDoubleRound (salsaDoubleRound (salsaDoubleRound (salsaDoubleRound x)))
  (List.zipWith (fun u v => leWord (u + v)) y x).flatten

/-- The blocks Y_0, Y_1, … of BlockMix, from X and the blocks still to mix in (R212). -/
def blockMixSteps : List Byte → List (List Byte) → List (List Byte)
  | _, [] => []
  | x, b :: rest =>
    let y := salsa208 (xorBytes x b)
    y :: blockMixSteps y rest

/-- The elements at even positions of a list. -/
def evens {α : Type} : List α → List α
  | [] => []
  | [a] => [a]
  | a :: _ :: rest => a :: evens rest

/-- `BlockMix(B, r)` on 128·r bytes (R212): even-indexed outputs first, then odd-indexed. -/
def blockMix (b : List Byte) (r : Nat) : List Byte :=
  let ys := blockMixSteps (slice b (64 * (2 * r - 1)) (128 * r)) (chunks 64 (2 * r) b)
  (evens ys).flatten ++ (evens ys.tail).flatten

/-- `Integerify(X, r)` (R213). -/
def integerify (x : List Byte) (r : Nat) : Nat :=
  leNat (slice x (64 * (2 * r - 1)) (64 * (2 * r - 1) + 8))

/-- The first loop of ROMix (R214): the entries V[0], V[1], …, `n` of them from X, and the X it leaves. -/
def romixFill (r : Nat) : Nat → List Byte → List (List Byte) × List Byte
  | 0, x => ([], x)
  | n + 1, x =>
    let rest := romixFill r n (blockMix x r)
    (x :: rest.1, rest.2)

/-- The second loop of ROMix (R214), `n` rounds left, over the array V of `nv` entries. -/
def romixMix (r nv : Nat) (v : List (List Byte)) : Nat → List Byte → List Byte
  | 0, x => x
  | n + 1, x =>
    romixMix r nv v n (blockMix (xorBytes x (v.getD (integerify x r % nv) [])) r)

/-- `ROMix(B, N, r)` on 128·r bytes (R214). -/
def romix (b : List Byte) (n r : Nat) : List Byte :=
  let filled := romixFill r n b
  romixMix r n filled.1 n filled.2

/-- `scrypt(P, S, N, r, p, dkLen)` (R215). The p lanes are independent. -/
def scrypt (p s : List Byte) (n r lanes dkLen : Nat) : List Byte :=
  let b := pbkdf2 p s 1 (lanes * 128 * r)
  pbkdf2 p (((chunks (128 * r) lanes b).map fun lane => romix lane n r).flatten) 1 dkLen

/-- KDF stage a: N = 16384, r = 8, p = 8, 64 bytes, mask‖key (R216, R220). -/
def kdfStageA (passphrase salt : List Byte) : List Byte := scrypt passphrase salt 16384 8 8 64

/-- KDF stage b: N = 16384, r = 8, p = 8, 32 bytes, a scalar (R216, R221). -/
def kdfStageB (passphrase salt : List Byte) : List Byte := scrypt passphrase salt 16384 8 8 32

/-- KDF stage c: N = 1024, r = 1, p = 1, 64 bytes, mask‖key (R216, R222). -/
def kdfStageC (passpoint salt : List Byte) : List Byte := scrypt passpoint salt 1024 1 1 64

end Sys2Proof.Machine
end

