-- ==== Sys2Proof/Machine/Kdf.lean ====
section
/-! DEFINITION. The meanings of the key-derivation family: SCRYPT_A, SCRYPT_B, SCRYPT_C (spec R220 to
R222). -/

namespace Sys2Proof.Machine

/-- The outputs of stages a and c from a 64-byte KDF output: MASK <- DK[0:32), KEY <- DK[32:64)
(R216). -/
def writeMaskKey (s : State) (dk : List Byte) : State :=
  { s with mask := bytesOf 32 (slice dk 0 32), key := bytesOf 32 (slice dk 32 64) }

/-- SCRYPT_A, KDF stage a (R220): passphrase VBUF[0:VLEN), salt CHK. -/
def execScryptA (s : State) : Result :=
  withVbuf s fun p => writeMaskKey s (kdfStageA p s.chk.toList)

/-- SCRYPT_B, KDF stage b (R221): passphrase VBUF[0:VLEN), salt OSALT; SCA <- the 32 bytes, unreduced. -/
def execScryptB (s : State) : Result :=
  withVbuf s fun p => { s with sca := bytesOf 32 (kdfStageB p s.osalt.toList) }

/-- SCRYPT_C, KDF stage c (R222): password PUB[0:33), salt CHK ‖ OSALT; Err(LENGTH) unless
PUBLEN = 33. -/
def execScryptC (s : State) : Result :=
  if publenCompressed s then complete (writeMaskKey s (kdfStageC (passpointBytes s) (stageCSalt s)))
  else raiseErr .length s

end Sys2Proof.Machine
end

