-- ==== Sys2Proof/Machine/Dispatch.lean ====
section
/-! DEFINITION. The meaning of every instruction: what the completion step evaluates (spec R383). -/

namespace Sys2Proof.Machine

def exec (i : Instr) (s : State) : Host.Outcome State Fault Refusal :=
  match i with
  | .sha256 => Sys2Proof.Machine.execSha256 s
  | .sha256d => Sys2Proof.Machine.execSha256d s
  | .checksum => Sys2Proof.Machine.execChecksum s
  | .scryptA => Sys2Proof.Machine.execScryptA s
  | .scryptB => Sys2Proof.Machine.execScryptB s
  | .scryptC => Sys2Proof.Machine.execScryptC s
  | .aesEnc => Sys2Proof.Machine.execAesEnc s
  | .aesDec => Sys2Proof.Machine.execAesDec s
  | .encMasked32 => Sys2Proof.Machine.execEncMasked32 s
  | .decMasked32 => Sys2Proof.Machine.execDecMasked32 s
  | .decMasked24 => Sys2Proof.Machine.execDecMasked24 s
  | .ecBasemulU => Sys2Proof.Machine.execEcBasemulU s
  | .ecBasemulC => Sys2Proof.Machine.execEcBasemulC s
  | .modmul => Sys2Proof.Machine.execModmul s
  | .factorb => Sys2Proof.Machine.execFactorb s
  | .zeroize => Sys2Proof.Machine.execZeroize s

end Sys2Proof.Machine
end

