-- ==== Sys2Proof/Machine/Engine.lean ====
section
/-! DEFINITION. The engine's completion step and what each event does (spec R9, R383, R473). -/

namespace Sys2Proof.Machine

/-- The completion step, enabled if and only if BUSY = 1 (R383): the command PEND holds is evaluated on
the current state in one atomic transition. An illegal PEND, which no acceptance writes, is a fault
(log 5). -/
def completionStep (s : State) : Result :=
  match decode s.pend with
  | some i => exec i s
  | none => .fault .pendIllegal

/-- The engine's turn: its completion step where that is enabled, else nothing (R383). -/
def engineTurn (s : State) : Result := if s.busy then completionStep s else .next s

/-- What one event does: a host read (its word goes to the host, R85), a host write (R86), the engine's
turn (R383), or reset (R473). -/
def react (e : Input) (s : State) : Result :=
  match e with
  | .read off => .next { s with rdata := memRead s off }
  | .write off v => .next (memWrite s off v)
  | .engine => engineTurn s
  | .reset => .next (resetGkb s)

/-- The next event is taken from the queue and acts. With no event to come, the engine has its turn: a
running command completes (weak fairness, R486), and an idle block stays as it is (R471). -/
def nextEvent (s : State) : Result :=
  match s.inputs with
  | [] => engineTurn s
  | e :: rest => react e { s with inputs := rest }

/-- `s` with a command word as the pending one (log 4): PEND <- w and BUSY <- 1, as acceptance leaves them
(R380), and the engine's turn next, ahead of any event that waits. -/
def withPending (s : State) (w : Word) : State :=
  { s with
    pend := w
    busy := true
    inputs := if s.inputs.isEmpty then [] else .engine :: s.inputs }

end Sys2Proof.Machine
end

