-- ==== Sys2Proof/Machine/Step.lean ====
section
/-! DEFINITION. One step of the GKB (spec R9, R100, R473). -/

namespace Sys2Proof.Machine

/-- One step: the next event of the total order of host accesses, completions and resets (R100, R473). -/
def step (s : State) : Host.Outcome State Fault Refusal := nextEvent s

/-- `s` with the command word `w` of `nbits` bits where the completion step fetches its command: in PEND,
accepted, the engine's turn next (R380, R383, log 4). -/
def State.withFetchWord (s : State) (nbits w : Nat) : State :=
  withPending s (BitVec.ofNat 32 (w % 2 ^ nbits))

end Sys2Proof.Machine
end

