-- ==== Sys2Proof/Machine/Ripemd160.lean ====
section
/-! DEFINITION. RIPEMD-160, the host-only hash of the address collaborator (spec R404). The spec names the
function and gives no definition: PRESUMED, the published RIPEMD-160 (log 20). -/

namespace Sys2Proof.Machine

/-- The five words of a RIPEMD-160 chaining value, or the working variables of one of its two lines. -/
structure Rmd5 where
  a : Word
  b : Word
  c : Word
  d : Word
  e : Word
deriving DecidableEq, Repr

/-- The initial chaining value (log 20). -/
def rmdInit : Rmd5 where
  a := 0x67452301
  b := 0xefcdab89
  c := 0x98badcfe
  d := 0x10325476
  e := 0xc3d2e1f0

/-- The Boolean function of a group of sixteen steps; the right line takes the groups from the last to
the first (log 20). -/
def rmdF (group : Nat) (x y z : Word) : Word :=
  match group with
  | 0 => x ^^^ y ^^^ z
  | 1 => (x &&& y) ||| (~~~x &&& z)
  | 2 => (x ||| ~~~y) ^^^ z
  | 3 => (x &&& z) ||| (y &&& ~~~z)
  | _ => x ^^^ (y ||| ~~~z)

/-- One step of a line: the function's group, the added constant, the message word's index and the
rotation. -/
structure RmdStep where
  group : Nat
  constant : Word
  word : Nat
  shift : Nat
deriving DecidableEq, Repr

/-- Sixteen steps with one function and one constant, from the word indices and the rotations. -/
def rmdGroup (group : Nat) (constant : Word) (words shifts : List Nat) : List RmdStep :=
  List.zipWith (fun w n => ⟨group, constant, w, n⟩) words shifts

/-- The eighty steps of the left line (log 20). -/
def rmdLeft : List RmdStep :=
  rmdGroup 0 0x00000000 [0, 1, 2, 3, 4, 5, 6, 7, 8, 9, 10, 11, 12, 13, 14, 15]
    [11, 14, 15, 12, 5, 8, 7, 9, 11, 13, 14, 15, 6, 7, 9, 8] ++
  rmdGroup 1 0x5a827999 [7, 4, 13, 1, 10, 6, 15, 3, 12, 0, 9, 5, 2, 14, 11, 8]
    [7, 6, 8, 13, 11, 9, 7, 15, 7, 12, 15, 9, 11, 7, 13, 12] ++
  rmdGroup 2 0x6ed9eba1 [3, 10, 14, 4, 9, 15, 8, 1, 2, 7, 0, 6, 13, 11, 5, 12]
    [11, 13, 6, 7, 14, 9, 13, 15, 14, 8, 13, 6, 5, 12, 7, 5] ++
  rmdGroup 3 0x8f1bbcdc [1, 9, 11, 10, 0, 8, 12, 4, 13, 3, 7, 15, 14, 5, 6, 2]
    [11, 12, 14, 15, 14, 15, 9, 8, 9, 14, 5, 6, 8, 6, 5, 12] ++
  rmdGroup 4 0xa953fd4e [4, 0, 5, 9, 7, 12, 2, 10, 14, 1, 3, 8, 11, 6, 15, 13]
    [9, 15, 5, 11, 6, 8, 13, 12, 5, 12, 13, 14, 11, 8, 5, 6]

/-- The eighty steps of the right line (log 20). -/
def rmdRight : List RmdStep :=
  rmdGroup 4 0x50a28be6 [5, 14, 7, 0, 9, 2, 11, 4, 13, 6, 15, 8, 1, 10, 3, 12]
    [8, 9, 9, 11, 13, 15, 15, 5, 7, 7, 8, 11, 14, 14, 12, 6] ++
  rmdGroup 3 0x5c4dd124 [6, 11, 3, 7, 0, 13, 5, 10, 14, 15, 8, 12, 4, 9, 1, 2]
    [9, 13, 15, 7, 12, 8, 9, 11, 7, 7, 12, 7, 6, 15, 13, 11] ++
  rmdGroup 2 0x6d703ef3 [15, 5, 1, 3, 7, 14, 6, 9, 11, 8, 12, 2, 10, 0, 4, 13]
    [9, 7, 15, 11, 8, 6, 6, 14, 12, 13, 5, 14, 13, 13, 7, 5] ++
  rmdGroup 1 0x7a6d76e9 [8, 6, 4, 1, 3, 11, 15, 0, 5, 12, 2, 13, 9, 7, 10, 14]
    [15, 5, 8, 11, 14, 14, 6, 14, 6, 9, 12, 9, 12, 5, 15, 8] ++
  rmdGroup 0 0x00000000 [12, 15, 10, 4, 1, 5, 8, 7, 6, 2, 13, 14, 0, 3, 9, 11]
    [8, 5, 12, 9, 12, 5, 14, 6, 8, 13, 6, 5, 15, 13, 11, 11]

/-- One step of a line on a block's sixteen words. -/
def rmdStep (ws : List Word) (s : Rmd5) (p : RmdStep) : Rmd5 :=
  let t := rotl32 (s.a + rmdF p.group s.b s.c s.d + ws.getD p.word 0 + p.constant) p.shift + s.e
  { a := s.e, b := t, c := s.b, d := rotl32 s.c 10, e := s.d }

/-- The compression of one 64-byte block: both lines, then their crosswise sum (log 20). -/
def rmdCompress (s : Rmd5) (block : List Byte) : Rmd5 :=
  let ws := wordsLe block
  let l := rmdLeft.foldl (rmdStep ws) s
  let r := rmdRight.foldl (rmdStep ws) s
  { a := s.b + l.c + r.d, b := s.c + l.d + r.e, c := s.d + l.e + r.a, d := s.e + l.a + r.b,
    e := s.a + l.b + r.c }

/-- The padding: 0x80, zeros to 56 modulo 64, the bit length as eight bytes, least significant first. -/
def rmdPad (m : List Byte) : List Byte :=
  m ++ [0x80#8] ++ List.replicate ((55 + 63 * m.length) % 64) 0#8 ++ (natBe 8 (8 * m.length)).reverse

/-- `RIPEMD160(M)`, 20 bytes (R404, log 20). -/
def ripemd160 (m : List Byte) : List Byte :=
  let p := rmdPad m
  let s := (chunks 64 (p.length / 64) p).foldl rmdCompress rmdInit
  leWord s.a ++ leWord s.b ++ leWord s.c ++ leWord s.d ++ leWord s.e

end Sys2Proof.Machine
end

