-- ==== Sys2Proof/Machine/Codec.lean ====
section
/-! DEFINITION. The host's Wire Codec and address collaborator: Base58Check, the key record, the flag
byte, the payload, the address (spec R401 to R404). Host software, outside the GKB (R6, R400). -/

namespace Sys2Proof.Machine

/-! ### Base58 and Base58Check (R401) -/

/-- The Base58 alphabet (R401). -/
def base58Alphabet : List Char :=
  "123456789ABCDEFGHJKLMNPQRSTUVWXYZabcdefghijkmnopqrstuvwxyz".toList

/-- The base-58 digits of an integer, most significant first, at most `fuel` of them; none for 0. -/
def base58Digits : Nat → Nat → List Nat
  | 0, _ => []
  | fuel + 1, x => if x = 0 then [] else base58Digits fuel (x / 58) ++ [x % 58]

/-- The bytes of an integer, big-endian and without leading zeros, at most `fuel` of them. -/
def minimalBytes : Nat → Nat → List Byte
  | 0, _ => []
  | fuel + 1, x => if x = 0 then [] else minimalBytes fuel (x / 256) ++ [BitVec.ofNat 8 x]

/-- `Base58(B)`: a big-endian base-58 numeral, each leading zero byte written as one leading 1 (R401). -/
def base58Encode (b : List Byte) : List Char :=
  let zeros := (b.takeWhile fun x => x == 0#8).length
  List.replicate zeros '1' ++
    (base58Digits (2 * b.length) (beNat b)).map fun d => base58Alphabet.getD d '1'

/-- The integer of a Base58 numeral; none where a character is not in the alphabet. -/
def base58Value (text : List Char) : Option Nat :=
  text.foldl (fun acc c =>
    match acc, base58Alphabet.findIdx? fun x => x == c with
    | some n, some d => some (n * 58 + d)
    | _, _ => none) (some 0)

/-- The byte string of a Base58 text; none where the text is not valid Base58 (R401). -/
def base58Decode (text : List Char) : Option (List Byte) :=
  let ones := (text.takeWhile fun c => c == '1').length
  (base58Value text).map fun n => List.replicate ones 0#8 ++ minimalBytes text.length n

/-- `SHA256D(x)[0:4)`, the four check bytes of Base58Check and of a record (R401, R404). -/
def checkBytes (b : List Byte) : List Byte := slice (sha256d b) 0 4

/-- `Base58Check(x) = Base58(x ‖ SHA256D(x)[0:4))` (R404). -/
def base58Check (b : List Byte) : List Char := base58Encode (b ++ checkBytes b)

/-! ### The key record (R401, R402, R403) -/

/-- What Decode returns of a record: the flag byte, the stored checksum and the payload (R407). -/
structure Record where
  flag : Byte
  checksum : List Byte
  payload : List Byte
deriving DecidableEq, Repr

/-- The version byte of a record (R401). -/
def recordVersion : Byte := 0x01

/-- The type byte of a non-EC record (R401). -/
def recordTypeNonEc : Byte := 0x42

/-- The type byte of an EC-multiply record (R401). -/
def recordTypeEc : Byte := 0x43

/-- The record body, bytes [0:39): version, type, flag, checksum, payload (R401). -/
def recordBody (flag : Byte) (checksum payload : List Byte) : List Byte :=
  [recordVersion, recordTypeNonEc, flag] ++ checksum ++ payload

/-- `Encode(flag, checksum, payload)`: type 0x42, since Encrypt produces only non-EC records (R401). -/
def encodeRecord (flag : Byte) (checksum payload : List Byte) : List Char :=
  base58Check (recordBody flag checksum payload)

/-- The 43 decoded bytes form a record: outer checksum, version and type are right (R401). -/
def recordBytesOk (b : List Byte) : Bool :=
  b.length == 43 && checkBytes (slice b 0 39) == slice b 39 43 &&
    b.getD 0 0 == recordVersion &&
    (b.getD 1 0 == recordTypeNonEc || b.getD 1 0 == recordTypeEc)

/-- `Decode(text)`; none stands for FormatError (R401). The type byte is not cross-checked with the flag
(R402). -/
def decodeRecord (text : List Char) : Option Record :=
  match base58Decode text with
  | some b =>
    if recordBytesOk b then
      some { flag := b.getD 2 0, checksum := slice b 3 7, payload := slice b 7 39 }
    else none
  | none => none

/-- `(flag & 0xC0) = 0xC0`: non-EC-multiply mode (R402). -/
def flagNonEc (flag : Byte) : Bool := flag &&& 0xC0 == 0xC0

/-- `(flag & 0x20) ≠ 0`: the public key is compressed (R402). -/
def flagCompressed (flag : Byte) : Bool := flag &&& 0x20 != 0

/-- `(flag & 0x04) ≠ 0`: lot/sequence numbers present, unsupported (R402). -/
def flagLotSequence (flag : Byte) : Bool := flag &&& 0x04 != 0

/-- The flag byte Encrypt writes: 0xE0 compressed, 0xC0 uncompressed (R406). -/
def encryptFlag (compressed : Bool) : Byte := if compressed then 0xE0 else 0xC0

/-- `ownerSalt = payload[0:8)`, EC-multiply mode (R403). -/
def payloadOwnerSalt (payload : List Byte) : List Byte := slice payload 0 8

/-- The encrypted seed, `payload[8:32)`, EC-multiply mode (R403). -/
def payloadSeed (payload : List Byte) : List Byte := slice payload 8 32

/-! ### The address collaborator (R404) -/

/-- A network name of the host parameter NETWORKS (R404). -/
inductive Network where
  /-- The Bitcoin main network. -/
  | bitcoinMain
  /-- Any other name. -/
  | named (name : List Char)
deriving DecidableEq, Repr

/-- `ver(network)`: 0x00 for the Bitcoin main network; the other entries of NETWORKS are the host's
(R404). None where the network is not in NETWORKS. -/
def networkVersion : Network → Option Byte
  | .bitcoinMain => some 0x00
  | .named name => (Config.otherNetworks.find? fun e => e.1 == name).map fun e => e.2

/-- `RIPEMD160(SHA256(pub))`, 20 bytes (R404, log 20). -/
def keyHash (pub : List Byte) : List Byte := ripemd160 (sha256 pub)

/-- `Address(pub, network)`; none stands for NetworkError (R404). -/
def address (pub : List Byte) (network : Network) : Option (List Char) :=
  (networkVersion network).map fun v => base58Check (v :: keyHash pub)

end Sys2Proof.Machine
end

