-- ==== Sys2Proof/Machine/HostNotation.lean ====
section
/-! DEFINITION. The host notation (spec R135, R136, R140 to R145): host programs that drive the GKB, the
host's temporaries, and one step of host and engine together. The host is no part of the GKB (R140): its
state stands here, beside a GKB state, and not in `State`. -/

namespace Sys2Proof.Machine

/-! ### Assembler names (R135, R136) -/

/-- The mnemonic of each command (R128, R135). -/
def mnemonicOf : Instr → String
  | .sha256 => "SHA256"
  | .sha256d => "SHA256D"
  | .checksum => "CHECKSUM"
  | .scryptA => "SCRYPT_A"
  | .scryptB => "SCRYPT_B"
  | .scryptC => "SCRYPT_C"
  | .aesEnc => "AES_ENC"
  | .aesDec => "AES_DEC"
  | .encMasked32 => "ENC_MASKED32"
  | .decMasked32 => "DEC_MASKED32"
  | .decMasked24 => "DEC_MASKED24"
  | .ecBasemulU => "EC_BASEMUL.U"
  | .ecBasemulC => "EC_BASEMUL.C"
  | .modmul => "MODMUL"
  | .factorb => "FACTORB"
  | .zeroize => "ZEROIZE"

/-- The aliases that name the source's functions (R136). -/
def mnemonicAliases : List (String × Instr) :=
  [("ENCRYPTMASKED", .encMasked32), ("DECRYPTMASKED", .decMasked32),
   ("DECRYPTMASKED24", .decMasked24), ("SCALARTOPOINT", .ecBasemulC), ("MODMULTIPLY", .modmul)]

/-- The command word of a mnemonic or an alias, in any letter case (R135, R136, R141); none for any other
name. -/
def assemble (name : String) : Option Word :=
  let upper := name.toList.map Char.toUpper
  (((Instr.all.map fun i => (mnemonicOf i, i)) ++ mnemonicAliases).find? fun e =>
    e.1.toList == upper).map fun e => encode e.2

/-! ### Host programs (R140) -/

/-- The host's temporaries t0 to t7: host registers, not GKB state (R140). -/
inductive Temp where
  | t0 | t1 | t2 | t3 | t4 | t5 | t6 | t7
deriving DecidableEq, Repr

/-- The values of the eight temporaries. -/
structure Temps where
  t0 : Word
  t1 : Word
  t2 : Word
  t3 : Word
  t4 : Word
  t5 : Word
  t6 : Word
  t7 : Word
deriving DecidableEq, Repr

/-- The value of a temporary. -/
def getTemp (t : Temps) : Temp → Word
  | .t0 => t.t0
  | .t1 => t.t1
  | .t2 => t.t2
  | .t3 => t.t3
  | .t4 => t.t4
  | .t5 => t.t5
  | .t6 => t.t6
  | .t7 => t.t7

/-- `tN <- v`. -/
def setTemp (t : Temps) (n : Temp) (v : Word) : Temps :=
  match n with
  | .t0 => { t with t0 := v }
  | .t1 => { t with t1 := v }
  | .t2 => { t with t2 := v }
  | .t3 => { t with t3 := v }
  | .t4 => { t with t4 := v }
  | .t5 => { t with t5 := v }
  | .t6 => { t with t6 := v }
  | .t7 => { t with t7 := v }

/-- The host's base operations (R140); a label is the index of an operation of the program. -/
inductive HostOp where
  /-- `WR off, imm32`. -/
  | wr (off : BitVec 12) (imm : Word)
  /-- `WRT off, tN`. -/
  | wrt (off : BitVec 12) (t : Temp)
  /-- `RD tN, off`. -/
  | rd (t : Temp) (off : BitVec 12)
  /-- `ANDI tD, tS, imm32`. -/
  | andi (d s : Temp) (imm : Word)
  /-- `BEQ tS, imm32, label`. -/
  | beq (s : Temp) (imm : Word) (label : Nat)
  /-- `BNE tS, imm32, label`. -/
  | bne (s : Temp) (imm : Word) (label : Nat)
  /-- `J label`. -/
  | j (label : Nat)
  /-- `HALT name`. -/
  | halt (name : String)
deriving DecidableEq, Repr

/-- `CMD m`: one write of the command word to CMD (R141). -/
def cmdOps (i : Instr) : List HostOp := [.wr 0x004 (encode i)]

/-- The words of a byte string padded on the right with zeros to a multiple of four (R142). -/
def paddedWords (b : List Byte) : List Word :=
  wordsLe (b ++ List.replicate ((4 - b.length % 4) % 4) 0#8)

/-- `WRBUF off, B`: write k carries bytes 4k to 4k+3 (R142). DESIGN CHOICE (log 22): an off+4k past 0xFFF
wraps to 0x000, the 12-bit sum of R80's offsets. -/
def wrbufOps (off : BitVec 12) : List Word → List HostOp
  | [] => []
  | w :: rest => .wr off w :: wrbufOps (off + 4#12) rest

/-- `RDBUF off, n`: ceil(n/4) reads into t5 (R142), `k` of them from `off`. DESIGN CHOICE (log 22): an
off+4k past 0xFFF wraps to 0x000. -/
def rdbufOps (off : BitVec 12) : Nat → List HostOp
  | 0 => []
  | k + 1 => .rd .t5 off :: rdbufOps (off + 4#12) k

/-- `WAIT` placed at index `here` of a program: poll STATUS until BUSY = 0 (R143). -/
def waitOps (here : Nat) : List HostOp :=
  [.rd .t7 0x008, .andi .t6 .t7 0x1, .bne .t6 0x0 here]

/-- `CHKERR label`: branch if the result code WAIT left in t7 is not zero (R144). -/
def chkerrOps (label : Nat) : List HostOp := [.andi .t6 .t7 0xF00, .bne .t6 0x0 label]

/-! ### Host and engine together (R9, R145) -/

/-- A host program under way on a GKB: the GKB state, the temporaries, the next operation's index, and
the outcome once it has halted (R145). -/
structure System where
  gkb : State
  temps : Temps
  index : Nat
  outcome : Option String
deriving DecidableEq, Repr

/-- Whose turn it is in the total order (R9, R100, R473). -/
inductive Turn where
  | host | engine | reset
deriving DecidableEq, Repr

/-- One base operation of the host (R140). -/
def hostOp (op : HostOp) (y : System) : System :=
  match op with
  | .wr off imm => { y with gkb := memWrite y.gkb off imm, index := y.index + 1 }
  | .wrt off t => { y with gkb := memWrite y.gkb off (getTemp y.temps t), index := y.index + 1 }
  | .rd t off => { y with temps := setTemp y.temps t (memRead y.gkb off), index := y.index + 1 }
  | .andi d s imm =>
    { y with temps := setTemp y.temps d (getTemp y.temps s &&& imm), index := y.index + 1 }
  | .beq s imm label => { y with index := if getTemp y.temps s = imm then label else y.index + 1 }
  | .bne s imm label => { y with index := if getTemp y.temps s = imm then y.index + 1 else label }
  | .j label => { y with index := label }
  | .halt name => { y with outcome := some name }

/-- The host's turn: the operation at its index, none once it has halted or past the program's end. -/
def hostTurn (prog : List HostOp) (y : System) : System :=
  match y.outcome, prog[y.index]? with
  | none, some op => hostOp op y
  | _, _ => y

/-- One turn of host, engine or reset. A fault of the engine (log 5) leaves the system where it is. -/
def systemTurn (prog : List HostOp) (turn : Turn) (y : System) : System :=
  match turn with
  | .host => hostTurn prog y
  | .engine =>
    match engineTurn y.gkb with
    | .next g => { y with gkb := g }
    | .fault _ => y
    | .refused _ => y
  | .reset => { y with gkb := resetGkb y.gkb }

/-- A program run under a schedule of turns (R143: any schedule the engine's fairness permits). -/
def runSystem (prog : List HostOp) (turns : List Turn) (y : System) : System :=
  turns.foldl (fun y t => systemTurn prog t y) y

/-- The start of a host program: the GKB after reset, every temporary 0 (R145, log 18). -/
def System.start : System where
  gkb := State.reset
  temps := ⟨0, 0, 0, 0, 0, 0, 0, 0⟩
  index := 0
  outcome := none

end Sys2Proof.Machine
end

