-- ==== Sys2Proof/Machine/Orchestration.lean ====
section
/-! DEFINITION. The host's Encrypt and Decrypt sequences over the GKB's bus (spec R400 to R417). Host
software, outside the GKB (R6): functions of a session, a GKB state with the host's own copies of the
secrets beside it, that answer the session they leave and the outcome. Each WAIT is run to its end (R143,
R417, log 19). -/

namespace Sys2Proof.Machine

/-! ### The bus as the sequences use it (R141 to R144) -/

/-- `WRBUF off, B` as its bus writes (R142). DESIGN CHOICE (log 22): an off+4k past 0xFFF wraps to 0x000. -/
def writeWords (off : BitVec 12) : List Word → State → State
  | [], s => s
  | w :: rest, s => writeWords (off + 4#12) rest (memWrite s off w)

/-- `WRBUF off, B` (R142). -/
def writeBuf (off : BitVec 12) (b : List Byte) (s : State) : State :=
  writeWords off (paddedWords b) s

/-- The words of `k` reads from `off` on (R142). DESIGN CHOICE (log 22): an off+4k past 0xFFF wraps to
0x000. -/
def readWords (off : BitVec 12) : Nat → State → List Word
  | 0, _ => []
  | k + 1, s => memRead s off :: readWords (off + 4#12) k s

/-- `RDBUF off, n` with the host's assembly of the bytes (R142). -/
def readBuf (off : BitVec 12) (n : Nat) (s : State) : List Byte :=
  ((readWords off ((n + 3) / 4) s).flatMap leWord).take n

/-- `WAIT` run to its end: the engine's completion step has occurred (R143, R486). -/
def waitDone (s : State) : State :=
  match engineTurn s with
  | .next t => t
  | .fault _ => s
  | .refused _ => s

/-- `CMD m; WAIT` (R141, R143). -/
def runCommand (i : Instr) (s : State) : State := waitDone (memWrite s 0x004 (encode i))

/-- `CHKERR` would branch: the result code in STATUS is not zero (R144). -/
def commandFailed (s : State) : Bool := memRead s 0x008 &&& 0xF00#32 != 0#32

/-! ### Outcomes (R413) -/

/-- The outcomes of the host sequences that are not success (R413). -/
inductive HostError where
  /-- Bad wrapper checksum, version, type or length (R401). -/
  | formatError
  /-- Lot/sequence bit set in EC-multiply mode (R407). -/
  | unsupportedFeature
  /-- Checksum mismatch after full decrypt (R410, R411). -/
  | wrongPassphrase
  /-- Address derivation fails for the network (R404). -/
  | networkError
  /-- Encrypt's own key is 0 or ≥ n (R406). -/
  | invalidKey
  /-- The passfactor is 0 or ≥ n (R409). -/
  | scalarOutOfRange
  /-- The passphrase is longer than VBUF (R406, R407). -/
  | inputTooLong
deriving DecidableEq, Repr

/-! ### The host's own copies and the exits (R412, R478) -/

/-- The host's own copies of the secrets (R412, R478): each one held, or none (log 21). No step of the
sequences reads MASK or KEY back, so those two are only ever cleared. -/
structure HostCopies where
  passphrase : Option (List Byte)
  mask : Option (List Byte)
  key : Option (List Byte)
  privateKey : Option (List Byte)
deriving DecidableEq, Repr

/-- No copy held: what every exit leaves (R412, R478). -/
def noCopies : HostCopies where
  passphrase := none
  mask := none
  key := none
  privateKey := none

/-- One host sequence under way: the GKB it drives and the host's own copies (R412). -/
structure Session where
  gkb : State
  copies : HostCopies
deriving DecidableEq, Repr

/-- The host holds the passphrase P. -/
def holdPassphrase (p : List Byte) (y : Session) : Session :=
  { y with copies := { y.copies with passphrase := some p } }

/-- The host holds the private key k. -/
def holdPrivateKey (k : List Byte) (y : Session) : Session :=
  { y with copies := { y.copies with privateKey := some k } }

/-- The exit before the first buffer write: no command, the host's own copies cleared (R412). A key that
is returned leaves with the outcome. -/
def leave {α : Type} (outcome : Except HostError α) (y : Session) : Session × Except HostError α :=
  ({ y with copies := noCopies }, outcome)

/-- The exit after a buffer write: ZEROIZE, WAIT, the host's own copies cleared (R412, R478). -/
def zeroizeAndLeave {α : Type} (outcome : Except HostError α) (y : Session) :
    Session × Except HostError α :=
  leave outcome { y with gkb := runCommand .zeroize y.gkb }

/-- `FAIL(e)`: ZEROIZE, WAIT, the host's own copies cleared, then the outcome e (R412). -/
def failWith {α : Type} (e : HostError) (y : Session) : Session × Except HostError α :=
  zeroizeAndLeave (.error e) y

/-! ### VERIFY (R405) -/

/-- How VERIFY can end without a checksum: its caller handles the SCALAR case, the network failure is
NetworkError (R405). -/
inductive VerifyError where
  | scalar
  | network
deriving DecidableEq, Repr

/-- `VERIFY(k, compressed, network)` (R405): the recomputed address checksum of the key. -/
def verify (k : List Byte) (compressed : Bool) (network : Network) (s : State) :
    State × Except VerifyError (List Byte) :=
  let s1 := runCommand (if compressed then .ecBasemulC else .ecBasemulU) (writeBuf 0x0E0 k s)
  if commandFailed s1 then (s1, .error .scalar)
  else
    let pub := readBuf 0x140 (memRead s1 0x014).toNat s1
    match address pub network with
    | none => (s1, .error .network)
    | some a =>
      let s2 := memWrite (writeBuf 0x200 (ascii a) s1) 0x010 (BitVec.ofNat 32 a.length)
      let s3 := runCommand .checksum s2
      (s3, .ok (readBuf 0x0C0 4 s3))

/-- A passphrase into VBUF with its length into VLEN (R406, R408, R409). -/
def writePassphrase (p : List Byte) (s : State) : State :=
  memWrite (writeBuf 0x200 p s) 0x010 (BitVec.ofNat 32 p.length)

/-! ### Encrypt (R406) -/

/-- Encrypt's steps after VERIFY has left the checksum in CHK: SCRYPT_A, ENC_MASKED32, the payload read
(R406). -/
def encryptPayload (k p : List Byte) (s : State) : State × List Byte :=
  let s1 := runCommand .scryptA (writePassphrase p s)
  let s2 := runCommand .encMasked32 (writeBuf 0x080 k s1)
  (s2, readBuf 0x0A0 32 s2)

/-- `Encrypt(k, compressed, P, network)` (R406). -/
def encryptKey (k : List Byte) (compressed : Bool) (p : List Byte) (network : Network) (y : Session) :
    Session × Except HostError (List Char) :=
  let y := holdPrivateKey k (holdPassphrase p y)
  if 256 < p.length then leave (.error .inputTooLong) y
  else
    match verify k compressed network y.gkb with
    | (s1, .error .scalar) => failWith .invalidKey { y with gkb := s1 }
    | (s1, .error .network) => failWith .networkError { y with gkb := s1 }
    | (s1, .ok chk) =>
      let r := encryptPayload k p s1
      zeroizeAndLeave (.ok (encodeRecord (encryptFlag compressed) chk r.2)) { y with gkb := r.1 }

/-! ### Decrypt (R407 to R411) -/

/-- The non-EC path up to the key: SCRYPT_A with the stored checksum as salt, DEC_MASKED32 (R408). -/
def decryptNonEc (r : Record) (p : List Byte) (s : State) : State × List Byte :=
  let s1 := runCommand .scryptA (writePassphrase p (writeBuf 0x0C0 r.checksum s))
  let s2 := runCommand .decMasked32 (writeBuf 0x080 r.payload s1)
  (s2, readBuf 0x0A0 32 s2)

/-- The EC-multiply path after the passpoint is in PUB: SCRYPT_C, DEC_MASKED24, FACTORB, MODMUL (R409). -/
def decryptSeed (r : Record) (s : State) : State × List Byte :=
  let s1 := runCommand .scryptC (writeBuf 0x0C0 r.checksum s)
  let s2 := runCommand .decMasked24 (writeBuf 0x080 (payloadSeed r.payload) s1)
  let s3 := runCommand .modmul (runCommand .factorb s2)
  (s3, readBuf 0x0E0 32 s3)

/-- The EC-multiply path up to the key; none where the passfactor is out of range (R409). -/
def decryptEc (r : Record) (p : List Byte) (s : State) : State × Option (List Byte) :=
  let s1 := runCommand .scryptB
    (writePassphrase p (writeBuf 0x0C8 (payloadOwnerSalt r.payload) s))
  let s2 := runCommand .ecBasemulC s1
  if commandFailed s2 then (s2, none)
  else
    let out := decryptSeed r s2
    (out.1, some out.2)

/-- The checksum check and return (R410, R411): the key is returned only if its recomputed checksum
equals the stored one. -/
def checkAndReturn (r : Record) (k : List Byte) (network : Network) (y : Session) :
    Session × Except HostError (List Byte × Bool) :=
  match verify k (flagCompressed r.flag) network y.gkb with
  | (s1, .error .scalar) => failWith .wrongPassphrase { y with gkb := s1 }
  | (s1, .error .network) => failWith .networkError { y with gkb := s1 }
  | (s1, .ok chk) =>
    if chk = r.checksum then zeroizeAndLeave (.ok (k, flagCompressed r.flag)) { y with gkb := s1 }
    else failWith .wrongPassphrase { y with gkb := s1 }

/-- Decrypt of a decoded record (R407 to R410). The lot/sequence rejection comes before any command. -/
def decryptRecord (r : Record) (p : List Byte) (network : Network) (y : Session) :
    Session × Except HostError (List Byte × Bool) :=
  let y := holdPassphrase p y
  if 256 < p.length then leave (.error .inputTooLong) y
  else if flagNonEc r.flag then
    let out := decryptNonEc r p y.gkb
    checkAndReturn r out.2 network (holdPrivateKey out.2 { y with gkb := out.1 })
  else if flagLotSequence r.flag then leave (.error .unsupportedFeature) y
  else
    match decryptEc r p y.gkb with
    | (s1, none) => failWith .scalarOutOfRange { y with gkb := s1 }
    | (s1, some k) => checkAndReturn r k network (holdPrivateKey k { y with gkb := s1 })

/-- `Decrypt(text, P, network)` (R407). -/
def decryptText (text : List Char) (p : List Byte) (network : Network) (y : Session) :
    Session × Except HostError (List Byte × Bool) :=
  match decodeRecord text with
  | none => leave (.error .formatError) (holdPassphrase p y)
  | some r => decryptRecord r p network y

end Sys2Proof.Machine
end

