-- ==== Sys2Proof/Safety.lean ====
section
/-! DEFINITION. The terms the statements use: the invariant of the GKB, which commands may end with which
error, and each command's read and write sets (spec R51, R60, R61, R430 to R436). -/

namespace Sys2Proof.Machine

/-- The commands that raise LENGTH (R430, R433). -/
def lengthCommands : List Instr := [.sha256, .sha256d, .checksum, .scryptA, .scryptB, .scryptC]

/-- The commands that raise SCALAR (R430, R434). -/
def scalarCommands : List Instr := [.ecBasemulU, .ecBasemulC]

/-- The commands over VBUF[0:VLEN) (R51). -/
def vbufCommands : List Instr := [.sha256, .sha256d, .checksum, .scryptA, .scryptB]

/-- What holds of every state a run from reset reaches. -/
structure Inv (s : State) : Prop where
  /-- While a command runs DONE is 0 and ERR reads 0 (R35, R380, R430). -/
  busy_clean : s.busy = true → s.done = false ∧ s.err = .none
  /-- While a command runs PEND is a legal word, the one LASTCMD shows (R34, R60, R380). -/
  busy_pending : s.busy = true → s.pend = s.lastcmd ∧ (decode s.pend).isSome = true
  /-- SCRATCH is all zero (R61, R384): the engine's only step leaves it so. -/
  scratch_zero : s.scratch = Memory.zeroed
  /-- ERR = ILLEGAL only where LASTCMD holds the offending word (R431). -/
  illegal_recorded : s.err = .illegal → decode s.lastcmd = none
  /-- ERR = LENGTH only after a command that raises it (R430, R433). -/
  length_raised : s.err = .length → ∃ i ∈ lengthCommands, decode s.lastcmd = some i
  /-- ERR = SCALAR only after a command that raises it (R430, R434). -/
  scalar_raised : s.err = .scalar → ∃ i ∈ scalarCommands, decode s.lastcmd = some i

/-- Every operand buffer and both lengths are the same in two states. -/
structure SameBuffers (s t : State) : Prop where
  vlen : t.vlen = s.vlen
  publen : t.publen = s.publen
  key : t.key = s.key
  mask : t.mask = s.mask
  din : t.din = s.din
  dout : t.dout = s.dout
  chk : t.chk = s.chk
  osalt : t.osalt = s.osalt
  sca : t.sca = s.sca
  scb : t.scb = s.scb
  pub : t.pub = s.pub
  vbuf : t.vbuf = s.vbuf

/-- Every operand buffer and both lengths are zero (R390, R63). -/
def buffersZero (s : State) : Bool :=
  s.vlen == 0#9 && s.publen == 0#7 &&
    allBuffers.all fun b => (bufferBytes s b).all fun x => x == 0#8

/-- The control registers a host can read are the same in two states (R95). -/
structure SameRegisters (s t : State) : Prop where
  lastcmd : t.lastcmd = s.lastcmd
  busy : t.busy = s.busy
  done : t.done = s.done
  wbusy : t.wbusy = s.wbusy
  err : t.err = s.err
  doneIe : t.doneIe = s.doneIe
  vlen : t.vlen = s.vlen
  publen : t.publen = s.publen

/-- The buffer ranges a command reads (R51): buffer, first byte, end. A range of VBUF ends at VLEN. -/
def readRanges (s : State) : Instr → List (Buffer × Nat × Nat)
  | .sha256 | .sha256d | .checksum => [(.vbuf, 0, s.vlen.toNat)]
  | .scryptA => [(.vbuf, 0, s.vlen.toNat), (.chk, 0, 4)]
  | .scryptB => [(.vbuf, 0, s.vlen.toNat), (.osalt, 0, 8)]
  | .scryptC => [(.pub, 0, 33), (.chk, 0, 4), (.osalt, 0, 8)]
  | .aesEnc | .aesDec => [(.key, 0, 32), (.din, 0, 16)]
  | .encMasked32 | .decMasked32 => [(.key, 0, 32), (.mask, 0, 32), (.din, 0, 32)]
  | .decMasked24 => [(.key, 0, 32), (.mask, 0, 32), (.din, 0, 24)]
  | .ecBasemulU | .ecBasemulC => [(.sca, 0, 32)]
  | .modmul => [(.sca, 0, 32), (.scb, 0, 32)]
  | .factorb => [(.dout, 0, 24)]
  | .zeroize => []

/-- The command reads VLEN (R51). -/
def readsVlen (i : Instr) : Bool := vbufCommands.contains i

/-- The command reads PUBLEN (R51). -/
def readsPublen (i : Instr) : Bool := i == .scryptC

/-- Two states agree on everything a command reads (R51, R385). -/
def readsAgree (i : Instr) (s t : State) : Prop :=
  (readsVlen i = true → t.vlen = s.vlen) ∧ (readsPublen i = true → t.publen = s.publen) ∧
    ∀ r ∈ readRanges s i, slice (bufferBytes t r.1) r.2.1 r.2.2 = slice (bufferBytes s r.1) r.2.1 r.2.2

/-- The buffer ranges a command writes when it succeeds (R51). -/
def writeRanges : Instr → List (Buffer × Nat × Nat)
  | .sha256 | .sha256d | .encMasked32 | .decMasked32 => [(.dout, 0, 32)]
  | .checksum => [(.chk, 0, 4)]
  | .scryptA | .scryptC => [(.mask, 0, 32), (.key, 0, 32)]
  | .scryptB | .modmul => [(.sca, 0, 32)]
  | .aesEnc | .aesDec => [(.dout, 0, 16)]
  | .decMasked24 => [(.dout, 0, 24)]
  | .ecBasemulU | .ecBasemulC => [(.pub, 0, 65)]
  | .factorb => [(.scb, 0, 32)]
  | .zeroize => allBuffers.map fun b => (b, 0, bufferLen b)

/-- The command writes VLEN when it succeeds (R51). -/
def writesVlen (i : Instr) : Bool := i == .zeroize

/-- The command writes PUBLEN when it succeeds (R51). -/
def writesPublen (i : Instr) : Bool := i == .zeroize || i == .ecBasemulU || i == .ecBasemulC

/-- Byte j of buffer b is one the command writes (R51). -/
def writesByte (i : Instr) (b : Buffer) (j : Nat) : Bool :=
  (writeRanges i).any fun r => r.1 == b && r.2.1 ≤ j && j < r.2.2

/-- What EC_BASEMUL leaves in PUB[0:PUBLEN) for the scalar k (R330). -/
def publicKey (compressed : Bool) (k : Nat) : List Byte :=
  if compressed then slice (bytesOf 65 (serializeCompressed (baseMul k))).toList 0 33
  else slice (bytesOf 65 (serializeUncompressed (baseMul k))).toList 0 65

/-- The reserved offsets of the window (R90). -/
def reservedOffset (off : BitVec 12) : Bool :=
  let o := off.toNat
  (0x018 ≤ o && o ≤ 0x03F) || (0x0C4 ≤ o && o ≤ 0x0C7) || (0x0D0 ≤ o && o ≤ 0x0DF) ||
    (0x120 ≤ o && o ≤ 0x13F) || (0x184 ≤ o && o ≤ 0x1FF) || 0x300 ≤ o

end Sys2Proof.Machine
end

