-- ==== Sys2Proof/Machine/StandardVectors.lean ====
section
/-! DEFINITION. The standard vectors R415 names (spec 95_test_vectors.md sections 1, 2.2 and 2.7): the
published records with the values the spec gives for them, and what the two paths of Decrypt compute once
the KDF outputs are known (R408, R409). -/

namespace Sys2Proof.Machine

/-- A standard vector: the record's text and passphrase, the KDF outputs the spec gives for it, and what
it decrypts to (95_test_vectors.md 2.2 and 2.7). Byte strings are written as big-endian numerals. -/
structure StandardVector where
  /-- The record. -/
  text : String
  /-- The passphrase. -/
  passphrase : String
  /-- The passfactor, stage b's output; none in non-EC mode. -/
  passfactor : Option Nat
  /-- MASK after the last KDF stage. -/
  mask : Nat
  /-- KEY after the last KDF stage. -/
  key : Nat
  /-- The private key. -/
  privateKey : Nat
  /-- The compression flag. -/
  compressed : Bool
  /-- The address on the Bitcoin main network. -/
  address : String
deriving DecidableEq, Repr

/-- Records 1 and 2: non-EC, uncompressed (95_test_vectors.md 2.7). -/
def standardVectorsUncompressed : List StandardVector :=
  [{ text := "6PRVWUbkzzsbcVac2qwfssoUJAN1Xhrg6bNk8J7Nzm5H7kxEbn2Nh2ZoGg"
     passphrase := "TestingOneTwoThree"
     passfactor := none
     mask := 0xf87648a6b42fdd86ef6837a249cde15318f264d43a859b610e78ea63d51cb2d3
     key := 0xe60bf44bfb29d543bba24afcccfadbfc6ef9312fcccf589fa5ea1366ec21e4c0
     privateKey := 0xcbf4b9f70470856bb4f40f80b87edb90865997ffee6df315ab166d713af433a5
     compressed := false
     address := "1Jq6MksXQVWzrznvZzxkV6oY57oWXD9TXB" },
   { text := "6PRNFFkZc2NZ6dJqFfhRoFNMR9Lnyj7dYGrzdgXXVMXcxoKTePPX1dWByq"
     passphrase := "Satoshi"
     passfactor := none
     mask := 0x02d4a6b94240bd1cdaa6773f430e43a0d9a8cbc9a83b044998f7ef2e3f31a4de
     key := 0x7f2436fede417c46b988879f4ef0595b75a55bcaec27848ef94e9f4b4d684cb9
     privateKey := 0x09c2686880095b1a4c249ee3ac4eea8a014f11e6f986d0b5025ac1f39afbd9ae
     compressed := false
     address := "1AvKt49sui9zfzGeo8EyL8ypvAhtR2KwbL" }]

/-- Records 3 and 4: non-EC, compressed (95_test_vectors.md 2.7). -/
def standardVectorsCompressed : List StandardVector :=
  [{ text := "6PYNKZ1EAgYgmQfmNVamxyXVWHzK5s6DGhwP4J5o44cvXdoY7sRzhtpUeo"
     passphrase := "TestingOneTwoThree"
     passfactor := none
     mask := 0x731ef3c737b55df4998b44fa8a547a3f38df424da240de389b11d1875ba47767
     key := 0x2f2fe81b0532b5950e3ea6fff92c65d467aa7d054969821de2344f7a86d42569
     privateKey := 0xcbf4b9f70470856bb4f40f80b87edb90865997ffee6df315ab166d713af433a5
     compressed := true
     address := "164MQi977u9GUteHr4EPH27VkkdxmfCvGW" },
   { text := "6PYLtMnXvfG3oJde97zRyLYFZCYizPU5T3LwgdYJz1fRhh16bU7u6PPmY7"
     passphrase := "Satoshi"
     passfactor := none
     mask := 0x0478e3e18d96ae2fbe033e3261944670c0ead16336890e4af46f55851ae211d2
     key := 0x2c97d288383bfd14983e5c574dafeb66f31b16bad037d40a6467019840ffa323
     privateKey := 0x09c2686880095b1a4c249ee3ac4eea8a014f11e6f986d0b5025ac1f39afbd9ae
     compressed := true
     address := "1HmPbwsvG5qJ3KJfxzsZRZWhbm1xBMuS8B" }]

/-- Records 5 and 6: EC-multiply, uncompressed (95_test_vectors.md 2.7). -/
def standardVectorsEc : List StandardVector :=
  [{ text := "6PfQu77ygVyJLZjfvMLyhLMQbYnu5uguoJJ4kMCLqWwPEdfpwANVS76gTX"
     passphrase := "TestingOneTwoThree"
     passfactor := some 0xc8ff7a1c8c8898a0361e477fa8f0f05c00d07c5d9626f00b03c0140a307c98f4
     mask := 0xda2d320e2ca088575369601e94dd71f210fc69c047a3d0f48bdbaab595916dc7
     key := 0xb8d083ea2678b5a71558c0fb0efa58b565227d05adf0c25fa0b9a74755477827
     privateKey := 0xa43a940577f4e97f5c4d39eb14ff083a98187c64ea7c99ef7ce460833959a519
     compressed := false
     address := "1PE6TQi6HTVNz5DLwB1LcpMBALubfuN2z2" },
   { text := "6PfLGnQs6VZnrNpmVKfjotbnQuaJK4KZoPFrAjx1JMJUa1Ft8gnf5WxfKd"
     passphrase := "Satoshi"
     passfactor := some 0xe8a9722cf7988c31f929bd656085ca6470595e068bae22858ea7d84fb4197a99
     mask := 0xdc7d942ea3c6c8953b30ee010c147a3222f6f5c52923e28185832f64d86781bc
     key := 0x5120c42e25509460892ac9fec45e1bc52613238e1b5c1ead9d41bdeea8892c5c
     privateKey := 0xc2c8036df268f498099350718c4a3ef3984d2be84618c2650f5171dcc5eb660a
     compressed := false
     address := "1CqzrtZC6mXSAhoxtFwVjz8LtwLJjDYU3V" }]

/-- The six standard vectors (R415; 95_test_vectors.md 2.7; record 1 is section 1's example). -/
def standardVectors : List StandardVector :=
  standardVectorsUncompressed ++ standardVectorsCompressed ++ standardVectorsEc

/-! ### What Decrypt computes from the KDF outputs -/

/-- The key of a non-EC record under stage a's output `mask‖key` (R408). -/
def keyOfStageA (r : Record) (dk : List Byte) : List Byte :=
  decryptMasked r.payload (slice dk 0 32) (slice dk 32 64)

/-- The key of an EC-multiply record from the passfactor and stage c's output `mask‖key` (R409). -/
def keyOfStageC (r : Record) (passfactor : Nat) (dk : List Byte) : List Byte :=
  let seed := decryptMasked24 (payloadSeed r.payload) (slice dk 0 32) (slice dk 32 64)
  natBe 32 (passfactor * beNat (sha256d seed) % curveN)

/-- The key a record and a passphrase give, before its check; none where the passfactor is out of range
(R408, R409). -/
def recoveredKey (r : Record) (p : List Byte) : Option (List Byte) :=
  if flagNonEc r.flag then some (keyOfStageA r (kdfStageA p r.checksum))
  else
    let passfactor := beNat (kdfStageB p (payloadOwnerSalt r.payload))
    if scalarInRange passfactor then
      some (keyOfStageC r passfactor
        (kdfStageC (publicKey true passfactor) (r.checksum ++ payloadOwnerSalt r.payload)))
    else none

end Sys2Proof.Machine
end

