-- ==== Sys2Proof/Certificates/Slice0/Obligations.lean ====
section
/-! DEFINITION. The statements about the GKB for the provers, each from the rule of spec/ its docstring
names. -/

open Sys2Proof Sys2Proof.Machine

/-! ### Reset -/

/-- R63: what every element of the state is after reset, ID as read, irq. (PEND: nothing is claimed.) -/
def Obligations.ResetLeavesTheSpecsValues : Prop :=
  memRead State.reset 0x000 = 0xB38E0100#32 ∧ State.reset.lastcmd = 0#32 ∧
    State.reset.busy = false ∧ State.reset.done = false ∧ State.reset.wbusy = false ∧
    errCode State.reset.err = 0#4 ∧ State.reset.doneIe = false ∧
    State.reset.vlen = 0#9 ∧ State.reset.publen = 0#7 ∧
    (∀ b, bufferBytes State.reset b = List.replicate (bufferLen b) 0#8) ∧
    (∀ a, Memory.read State.reset.scratch a = 0#8) ∧ irq State.reset = false

/-- R470, R472, R473: a reset event replaces every element of the GKB by its reset value, a running
command abandoned with no output written. (PEND: nothing is claimed. That the events still to come stay
is the model's choice, log 6.) -/
def Obligations.ResetStepAbandonsTheRunningCommand : Prop :=
  ∀ (s : State) (rest : List Input), s.inputs = .reset :: rest →
    ∃ t, step s = .next t ∧ t.busy = false ∧ t.done = false ∧ t.wbusy = false ∧ t.err = .none ∧
      t.lastcmd = 0#32 ∧ t.doneIe = false ∧ buffersZero t = true ∧
      (∀ a, Memory.read t.scratch a = 0#8) ∧ irq t = false ∧ t.inputs = rest

/-! ### Encoding -/

/-- R128: the sixteen command words and the commands they stand for. -/
def Obligations.DecodesTheSpecsCommandWords : Prop :=
  decode 0x00000010 = some .sha256 ∧ decode 0x00000011 = some .sha256d ∧
    decode 0x00000012 = some .checksum ∧ decode 0x00000020 = some .scryptA ∧
    decode 0x00000021 = some .scryptB ∧ decode 0x00000022 = some .scryptC ∧
    decode 0x00000030 = some .aesEnc ∧ decode 0x00000031 = some .aesDec ∧
    decode 0x00000032 = some .encMasked32 ∧ decode 0x00000033 = some .decMasked32 ∧
    decode 0x00000034 = some .decMasked24 ∧ decode 0x00000040 = some .ecBasemulU ∧
    decode 0x00000140 = some .ecBasemulC ∧ decode 0x00000041 = some .modmul ∧
    decode 0x00000042 = some .factorb ∧ decode 0x000000F0 = some .zeroize

/-- R129: a word is legal iff its three conditions hold; the legal words are exactly the sixteen of the
table; a legal word decodes to the command of its OP and C fields. -/
def Obligations.LegalWordsAreExactlyTheTable : Prop :=
  ∀ w : Word,
    ((decode w).isSome = true ↔
      opField w ∈ opcodes ∧ rsvField w = 0#23 ∧ (pointBit w = false ∨ opField w = 0x40#8)) ∧
    ((decode w).isSome = true ↔
      w ∈ ([0x10, 0x11, 0x12, 0x20, 0x21, 0x22, 0x30, 0x31, 0x32, 0x33, 0x34, 0x40, 0x140, 0x41,
        0x42, 0xF0] : List Word)) ∧
    ∀ i, decode w = some i → opcodeOf i = opField w ∧ pointBitOf i = pointBit w

/-- R128, R129: over all words and all commands, the decoder answers a command exactly on the word the
encoder gives it: no bit of a word is dropped, and no two words stand for one command. -/
def Obligations.DecodeAndEncodeAgree : Prop :=
  ∀ (w : Word) (i : Instr), decode w = some i ↔ w = encode i

/-! ### Steps -/

/-- R383: the completion step runs the command PEND holds. With no event waiting, or with the engine's
event first, step is exec of the decoded command; a word placed by withFetchWord is run by the very next
step. (How events wait is the model's own, log 1, log 4.) -/
def Obligations.StepRunsThePendingCommand : Prop :=
  (∀ (s : State) (i : Instr), s.busy = true → decode s.pend = some i →
    (s.inputs = [] → step s = exec i s) ∧
      ∀ rest, s.inputs = .engine :: rest → step s = exec i { s with inputs := rest }) ∧
    ∀ (s : State) (i : Instr),
      step (s.withFetchWord 32 (encode i).toNat) = exec i { s with pend := encode i, busy := true }

/-- R85, R86, R88, R471: a read event answers the word and changes nothing of the GKB, a write event is
the bus write, and an idle block with no event stays as it is. (The queue and the place of the read word
are the model's own, log 1, log 2.) -/
def Obligations.StepPerformsTheHostAccess : Prop :=
  ∀ (s : State) (rest : List Input),
    (∀ off, s.inputs = .read off :: rest →
      step s = .next { s with inputs := rest, rdata := memRead s off }) ∧
    (∀ off v, s.inputs = .write off v :: rest →
      step s = .next (memWrite { s with inputs := rest } off v)) ∧
    (s.busy = false → s.inputs = .engine :: rest → step s = .next { s with inputs := rest }) ∧
    (s.busy = false → s.inputs = [] → step s = .next s)

/-- R34, R60, R61, R380, R383, R430: the invariant, kept by every step from every state that meets it. -/
def Obligations.EveryStepKeepsTheInvariant : Prop :=
  ∀ s t : State, Inv s → step s = .next t → Inv t

/-- R63: the state after reset meets the invariant. -/
def Obligations.ResetMeetsTheInvariant : Prop := Inv State.reset

/-- R438, R439: no bus access faults and no command traps: a state that meets the invariant always has a
next state. -/
def Obligations.InvariantStatesAlwaysStep : Prop :=
  ∀ s : State, Inv s → ∃ t, step s = .next t

/-- R486: unless reset intervenes, every accepted command completes. With a command running and no reset
waiting, after at most as many steps as there are waiting events the same command is still pending, with
the same operands, and the next step is its completion. And, resets among the events or not, one step for
each waiting event and one more reach a state with no event waiting and BUSY = 0. (The queue stands for
the unspecified latency, log 1, log 8; that it keeps its later events across a reset is log 6.) -/
def Obligations.EveryAcceptedCommandCompletes : Prop :=
  (∀ (s : State) (i : Instr), Inv s → s.busy = true → decode s.pend = some i → .reset ∉ s.inputs →
    ∃ (n : Nat) (u : State), n ≤ s.inputs.length ∧ Host.Core.run Sys2Proof.core n s = .next u ∧
      u.busy = true ∧ u.pend = s.pend ∧ SameBuffers s u ∧
      step u = exec i { u with inputs := u.inputs.tail }) ∧
    ∀ s : State, Inv s →
      ∃ t : State, Host.Core.run Sys2Proof.core (s.inputs.length + 1) s = .next t ∧
        t.inputs = [] ∧ t.busy = false ∧ Inv t

/-- A step keeps SCRATCH's canonical form, and within its SCRATCH_BYTES bytes. (The sparse list and its
canonical form are the model's choice, log 7; R11 gives the size, R61 the contents.) -/
def Obligations.ScratchStaysCanonical : Prop :=
  ∀ s t : State, Memory.wf s.scratch = true → Memory.inScratch s.scratch = true →
    step s = .next t → Memory.wf t.scratch = true ∧ Memory.inScratch t.scratch = true

/-! ### The register window -/

/-- R82, R90: the ten buffers, their base offsets and their lengths; byte i of the buffer at base b is read
at window offset b + i, on byte lane (b + i) mod 4. -/
def Obligations.BufferBytesOnTheirLanes : Prop :=
  (∀ s : State, ([.key, .mask, .din, .dout, .chk, .osalt, .sca, .scb, .pub, .vbuf] : List Buffer).map
      (fun b => (bufferBase b, bufferLen b, bufferBytes s b)) =
    [(0x040, 32, s.key.toList), (0x060, 32, s.mask.toList), (0x080, 32, s.din.toList),
      (0x0A0, 32, s.dout.toList), (0x0C0, 4, s.chk.toList), (0x0C8, 8, s.osalt.toList),
      (0x0E0, 32, s.sca.toList), (0x100, 32, s.scb.toList), (0x140, 65, s.pub.toList),
      (0x200, 256, s.vbuf.toList)]) ∧
    ∀ (s : State) (b : Buffer) (i : Nat), s.busy = false → i < bufferLen b →
      (memRead s (BitVec.ofNat 12 (bufferBase b + i))).extractLsb' (8 * ((bufferBase b + i) % 4)) 8 =
        (bufferBytes s b).getD i 0#8

/-- From R85 and R86, as R92 infers: the word at 0x180 carries PUB[64] in bits 7:0; its other bits read 0 and ignore writes; no word
of PUB lies above it. -/
def Obligations.PubsLastWordCarriesOneByte : Prop :=
  (∀ s : State, s.busy = false →
    memRead s 0x180 = (byteAt s.pub 64).setWidth 32 ∧
      ∀ v, memWrite s 0x180 v = { s with pub := setByte s.pub 64 (v.extractLsb' 0 8) }) ∧
    bufferAt 0x140 = some .pub ∧ bufferAt 0x180 = some .pub ∧ bufferAt 0x184 = none

/-- R90, R91: reserved offsets read as zero and ignore writes; a write there while busy sets WBUSY. R33,
R34: 0x000 reads the constant ID and 0x004 the last command word, at all times; a write to ID changes
nothing while idle. -/
def Obligations.ReservedOffsetsReadZeroAndIgnoreWrites : Prop :=
  (∀ (s : State) (off : BitVec 12) (v : Word), reservedOffset off = true →
    memRead s off = 0#32 ∧
      memWrite s off v = if s.busy then { s with wbusy := true } else s) ∧
    ∀ (s : State) (v : Word), memRead s 0x000 = 0xB38E0100#32 ∧ memRead s 0x004 = s.lastcmd ∧
      memWrite s 0x000 v = if s.busy then { s with wbusy := true } else s

/-- R95: while BUSY = 1 the buffer region reads as zero, the registers read their values, and no read
depends on any buffer, on PEND or on SCRATCH. -/
def Obligations.BusyReadsShowNoBuffer : Prop :=
  ∀ s : State, s.busy = true →
    (∀ off : BitVec 12, 0x040 ≤ off.toNat → off.toNat ≤ 0x2FF → memRead s off = 0#32) ∧
    memRead s 0x000 = 0xB38E0100#32 ∧ memRead s 0x004 = s.lastcmd ∧
    memRead s 0x008 = statusWord s ∧ (memRead s 0x00C).getLsbD 0 = s.doneIe ∧
    (memRead s 0x010).toNat = s.vlen.toNat ∧ (memRead s 0x014).toNat = s.publen.toNat ∧
    ∀ (t : State) (off : BitVec 12), SameRegisters s t → memRead t off = memRead s off

/-- R96: while BUSY = 1 a write outside STATUS and IRQ_EN changes nothing but WBUSY, and no write at all
changes an operand, LASTCMD or the pending command. -/
def Obligations.BusyWritesAreDropped : Prop :=
  ∀ (s : State) (off : BitVec 12) (v : Word), s.busy = true →
    (alignOffset off ≠ 0x008 → alignOffset off ≠ 0x00C →
      memWrite s off v = { s with wbusy := true }) ∧
    SameBuffers s (memWrite s off v) ∧ (memWrite s off v).lastcmd = s.lastcmd ∧
    (memWrite s off v).pend = s.pend ∧ (memWrite s off v).busy = true

/-- R35: STATUS's bits as read, and a write to it, busy or not: W1C of DONE and of WBUSY and nothing
else. -/
def Obligations.StatusReadsAndClears : Prop :=
  ∀ (s : State) (v : Word),
    (memRead s 0x008).getLsbD 0 = s.busy ∧ (memRead s 0x008).getLsbD 1 = s.done ∧
    (memRead s 0x008).getLsbD 2 = s.wbusy ∧ (memRead s 0x008).extractLsb' 3 5 = 0#5 ∧
    (memRead s 0x008).extractLsb' 8 4 = errCode s.err ∧
    (memRead s 0x008).extractLsb' 12 20 = 0#20 ∧
    memWrite s 0x008 v =
      { s with
        done := if v.getLsbD 1 then false else s.done
        wbusy := if v.getLsbD 2 then false else s.wbusy }

/-- R36: IRQ_EN holds DONE_IE in bit 0, 0 at reset, which enables the completion interrupt; its other
bits read 0 and ignore writes; a write to it is never dropped. -/
def Obligations.InterruptEnableHoldsOneBit : Prop :=
  State.reset.doneIe = false ∧ ∀ (s : State) (v : Word),
    (memRead s 0x00C).getLsbD 0 = s.doneIe ∧ (memRead s 0x00C).extractLsb' 1 31 = 0#31 ∧
    memWrite s 0x00C v = { s with doneIe := v.getLsbD 0 } ∧
    irq (memWrite s 0x00C v) = (s.done && v.getLsbD 0)

/-- R37, R442: a completion raises irq exactly where DONE_IE is set; clearing either bit, the acceptance
of a command and reset deassert it. -/
def Obligations.CompletionsRaiseTheInterrupt : Prop :=
  (∀ (i : Instr) (s t : State), exec i s = .next t → irq t = s.doneIe) ∧
    (∀ (s : State) (v : Word), v.getLsbD 1 = true → irq (memWrite s 0x008 v) = false) ∧
    (∀ (s : State) (v : Word), v.getLsbD 0 = false → irq (memWrite s 0x00C v) = false) ∧
    (∀ (s : State) (i : Instr), s.busy = false → irq (memWrite s 0x004 (encode i)) = false) ∧
    ∀ s : State, irq (resetGkb s) = false

/-- R38, R39: VLEN and PUBLEN store the low 9 and 7 bits of a word written while idle, and read back. -/
def Obligations.LengthRegistersStoreTheirField : Prop :=
  ∀ (s : State) (v : Word), s.busy = false →
    (memRead (memWrite s 0x010 v) 0x010).toNat = v.toNat % 512 ∧
    (memRead (memWrite s 0x014 v) 0x014).toNat = v.toNat % 128 ∧
    memWrite s 0x010 v = { s with vlen := BitVec.ofNat 9 v.toNat } ∧
    memWrite s 0x014 v = { s with publen := BitVec.ofNat 7 v.toNat }

/-- R86: a word written to a buffer while idle changes exactly the bytes of the buffer that the word's
lanes carry; every other byte of every buffer and every register is as before. (The bases and lengths as
numbers: BufferBytesOnTheirLanes.) -/
def Obligations.BufferWritesChangeOnlyTheirBytes : Prop :=
  ∀ (s : State) (off : BitVec 12) (v : Word) (b : Buffer), s.busy = false →
    bufferBase b ≤ alignOffset off → alignOffset off < bufferBase b + bufferLen b →
    (∀ (c : Buffer) (j : Nat), j < bufferLen c →
      (bufferBytes (memWrite s off v) c).getD j 0#8 =
        if c = b ∧ alignOffset off ≤ bufferBase b + j ∧ bufferBase b + j < alignOffset off + 4 then
          v.extractLsb' (8 * ((bufferBase b + j) % 4)) 8
        else (bufferBytes s c).getD j 0#8) ∧
    SameRegisters s (memWrite s off v) ∧ (memWrite s off v).pend = s.pend ∧
    (memWrite s off v).scratch = s.scratch ∧ (memWrite s off v).inputs = s.inputs ∧
    (memWrite s off v).rdata = s.rdata

/-- R85, R86, R100: a read returns the word the last write to its offset stored, at every word that lies
wholly in a buffer. (The bases and lengths as numbers: BufferBytesOnTheirLanes.) -/
def Obligations.ReadAfterWriteReturnsTheWord : Prop :=
  ∀ (s : State) (off : BitVec 12) (v : Word) (b : Buffer), s.busy = false →
    bufferBase b ≤ alignOffset off → alignOffset off + 4 ≤ bufferBase b + bufferLen b →
    memRead (memWrite s off v) off = v

/-- R85: offset bits 1:0 are ignored. -/
def Obligations.OffsetsAreAlignedDown : Prop :=
  ∀ (s : State) (off : BitVec 12) (v : Word),
    memRead s off = memRead s (off &&& 0xFFC#12) ∧
      memWrite s off v = memWrite s (off &&& 0xFFC#12) v

/-! ### Issue -/

/-- R380: a word written to CMD while idle is the last command; a legal word is accepted, an illegal one
ends at once. -/
def Obligations.IssueAcceptsExactlyTheLegalWords : Prop :=
  ∀ (s : State) (w : Word), s.busy = false →
    ((decode w).isSome = true →
      memWrite s 0x004 w =
        { s with lastcmd := w, done := false, err := .none, pend := w, busy := true }) ∧
    (decode w = none →
      memWrite s 0x004 w = { s with lastcmd := w, done := true, err := .illegal })

/-- R382: an illegal word changes only LASTCMD, DONE and ERR; BUSY is never set and no completion step
follows; with DONE_IE = 1 irq asserts at once. -/
def Obligations.IllegalWordsEndAtOnce : Prop :=
  ∀ (s : State) (w : Word), s.busy = false → decode w = none →
    memWrite s 0x004 w = { s with lastcmd := w, done := true, err := .illegal } ∧
    errCode (memWrite s 0x004 w).err = 1#4 ∧ (memWrite s 0x004 w).busy = false ∧
    engineTurn (memWrite s 0x004 w) = .next (memWrite s 0x004 w) ∧
    (s.doneIe = true → irq (memWrite s 0x004 w) = true)

/-! ### Completion -/

/-- R383, R384: every completion, successful or erroring, clears BUSY, sets DONE, leaves SCRATCH all zero
and changes no register besides STATUS, VLEN and PUBLEN. -/
def Obligations.CompletionsEndTheCommand : Prop :=
  ∀ (i : Instr) (s t : State), exec i s = .next t →
    t.busy = false ∧ t.done = true ∧ (∀ a, Memory.read t.scratch a = 0#8) ∧ t.err ≠ .illegal ∧
    t.wbusy = s.wbusy ∧ t.lastcmd = s.lastcmd ∧ t.doneIe = s.doneIe ∧ t.pend = s.pend ∧
    t.inputs = s.inputs ∧ t.rdata = s.rdata

/-- R436: a command that ends with an error writes no buffer, VLEN or PUBLEN. -/
def Obligations.ErroringCommandsWriteNoBuffer : Prop :=
  ∀ (i : Instr) (s t : State), exec i s = .next t → t.err ≠ .none →
    SameBuffers s t ∧ (∀ a, Memory.read t.scratch a = 0#8) ∧ t.busy = false ∧ t.done = true ∧
      t = { s with err := t.err, scratch := t.scratch, busy := false, done := true }

/-- R433, R434, R435: every command completes from every state, with LENGTH exactly where its length
operand is out of range, SCALAR exactly where EC_BASEMUL's scalar is, and otherwise without an error. -/
def Obligations.CommandsEndWithTheirErrorExactly : Prop :=
  ∀ (i : Instr) (s : State), ∃ t, exec i s = .next t ∧
    (t.err = .length ↔
      (i ∈ [Instr.sha256, .sha256d, .checksum, .scryptA, .scryptB] ∧ 256 < s.vlen.toNat) ∨
        (i = .scryptC ∧ s.publen.toNat ≠ 33)) ∧
    (t.err = .scalar ↔
      i ∈ [Instr.ecBasemulU, .ecBasemulC] ∧
        (beNat s.sca.toList = 0 ∨ curveN ≤ beNat s.sca.toList)) ∧
    t.err ≠ .illegal

/-- R160: SHA256. With VLEN ≤ 256 it writes SHA256(VBUF[0:VLEN)) to DOUT and nothing else but the flags of
R383; with VLEN > 256 it writes no buffer and ends with LENGTH. -/
def Obligations.Sha256WritesTheDigest : Prop :=
  decode 0x00000010 = some .sha256 ∧ ∀ s : State,
    (s.vlen.toNat ≤ 256 → ∃ d : Bytes 32, d.toList = sha256 (s.vbuf.toList.take s.vlen.toNat) ∧
      exec .sha256 s = .next
        { s with dout := d, err := .none, scratch := [], busy := false, done := true }) ∧
    (256 < s.vlen.toNat →
      exec .sha256 s = .next { s with err := .length, scratch := [], busy := false, done := true })

/-- R161: SHA256D. -/
def Obligations.Sha256dWritesTheDoubleDigest : Prop :=
  decode 0x00000011 = some .sha256d ∧ ∀ s : State,
    (s.vlen.toNat ≤ 256 → ∃ d : Bytes 32,
      d.toList = sha256 (sha256 (s.vbuf.toList.take s.vlen.toNat)) ∧
      exec .sha256d s = .next
        { s with dout := d, err := .none, scratch := [], busy := false, done := true }) ∧
    (256 < s.vlen.toNat →
      exec .sha256d s = .next { s with err := .length, scratch := [], busy := false, done := true })

/-- R162: CHECKSUM writes the first four bytes of the double digest to CHK; DOUT is not written. -/
def Obligations.ChecksumWritesFourBytes : Prop :=
  decode 0x00000012 = some .checksum ∧ ∀ s : State,
    (s.vlen.toNat ≤ 256 → ∃ d : Bytes 4,
      d.toList = (sha256 (sha256 (s.vbuf.toList.take s.vlen.toNat))).take 4 ∧
      exec .checksum s = .next
        { s with chk := d, err := .none, scratch := [], busy := false, done := true }) ∧
    (256 < s.vlen.toNat →
      exec .checksum s = .next
        { s with err := .length, scratch := [], busy := false, done := true })

/-- R220: SCRYPT_A, KDF stage a with salt CHK: MASK and KEY. With it what scrypt is built of: its p lanes
between two PBKDF2 (R215), PBKDF2's blocks U_1 ⊕ … ⊕ U_c (R201), HMAC with a key of more than 64 bytes
hashed first and a shorter one padded with zeros (R200). -/
def Obligations.ScryptAWritesMaskAndKey : Prop :=
  (∀ (p s : List Byte) (n r lanes dkLen : Nat), scrypt p s n r lanes dkLen =
    pbkdf2 p ((List.range lanes).flatMap fun i =>
      romix (slice (pbkdf2 p s 1 (lanes * 128 * r)) (128 * r * i) (128 * r * (i + 1))) n r) 1 dkLen) ∧
  (∀ (p s : List Byte) (c dkLen : Nat), 1 ≤ c → ∃ u : Nat → Nat → List Byte,
    (∀ i, u i 1 = hmac p (s ++ natBe 4 i)) ∧ (∀ i k, 1 ≤ k → u i (k + 1) = hmac p (u i k)) ∧
    pbkdf2 p s c dkLen = ((List.range' 1 ((dkLen + 31) / 32)).flatMap fun i =>
      (List.range' 2 (c - 1)).foldl (fun t k => xorBytes t (u i k)) (u i 1)).take dkLen) ∧
  (∀ k m : List Byte,
    (k.length ≤ 64 → ∃ k0 : List Byte, k0 = k ++ List.replicate (64 - k.length) 0#8 ∧
      hmac k m = sha256 (k0.map (· ^^^ 0x5c#8) ++ sha256 (k0.map (· ^^^ 0x36#8) ++ m))) ∧
    (64 < k.length → hmac k m = hmac (sha256 k) m)) ∧
  decode 0x00000020 = some .scryptA ∧ ∀ s : State,
    (s.vlen.toNat ≤ 256 → ∃ (dk : List Byte) (m k : Bytes 32),
      dk = scrypt (s.vbuf.toList.take s.vlen.toNat) s.chk.toList 16384 8 8 64 ∧
      m.toList = dk.take 32 ∧ k.toList = dk.drop 32 ∧
      exec .scryptA s = .next
        { s with mask := m, key := k, err := .none, scratch := [], busy := false, done := true }) ∧
    (256 < s.vlen.toNat →
      exec .scryptA s = .next { s with err := .length, scratch := [], busy := false, done := true })

/-- R221: SCRYPT_B, KDF stage b with salt OSALT: the 32 raw bytes to SCA. With it ROMix's two loops: the
array entries V[i] are the values x i of the first loop, and round i of the second mixes in the entry that
Integerify names (R214); Integerify is the little-endian integer of the last block's first 8 bytes (R213). -/
def Obligations.ScryptBWritesThePassfactor : Prop :=
  (∀ (b : List Byte) (n r : Nat), ∃ x z : Nat → List Byte,
    x 0 = b ∧ (∀ i, x (i + 1) = blockMix (x i) r) ∧ z 0 = x n ∧
    (∀ i, z (i + 1) = blockMix (xorBytes (z i) (x (integerify (z i) r % n))) r) ∧
    romix b n r = z n) ∧
  (∀ (x : List Byte) (r : Nat), 1 ≤ r → x.length = 128 * r → integerify x r =
    ((List.range 8).map fun k => (x.getD (64 * (2 * r - 1) + k) 0#8).toNat * 256 ^ k).sum) ∧
  decode 0x00000021 = some .scryptB ∧ ∀ s : State,
    (s.vlen.toNat ≤ 256 → ∃ d : Bytes 32,
      d.toList = scrypt (s.vbuf.toList.take s.vlen.toNat) s.osalt.toList 16384 8 8 32 ∧
      exec .scryptB s = .next
        { s with sca := d, err := .none, scratch := [], busy := false, done := true }) ∧
    (256 < s.vlen.toNat →
      exec .scryptB s = .next { s with err := .length, scratch := [], busy := false, done := true })

/-- R222: SCRYPT_C, KDF stage c of PUB[0:33) with salt CHK ‖ OSALT: MASK and KEY; LENGTH unless
PUBLEN = 33. With it BlockMix: Y_0 from the last block and block 0, each further Y from the one before and
the next block, the even-indexed Y first, then the odd-indexed (R212). -/
def Obligations.ScryptCWritesMaskAndKey : Prop :=
  (∀ (b : List Byte) (r : Nat), 1 ≤ r → b.length = 128 * r → ∃ y : Nat → List Byte,
    y 0 = salsa208 (xorBytes (slice b (64 * (2 * r - 1)) (128 * r)) (slice b 0 64)) ∧
    (∀ i, i + 1 < 2 * r →
      y (i + 1) = salsa208 (xorBytes (y i) (slice b (64 * (i + 1)) (64 * (i + 2))))) ∧
    blockMix b r = ((List.range r).flatMap fun i => y (2 * i)) ++
      (List.range r).flatMap fun i => y (2 * i + 1)) ∧
  decode 0x00000022 = some .scryptC ∧ ∀ s : State,
    (s.publen.toNat = 33 → ∃ (dk : List Byte) (m k : Bytes 32),
      dk = scrypt (s.pub.toList.take 33) (s.chk.toList ++ s.osalt.toList) 1024 1 1 64 ∧
      m.toList = dk.take 32 ∧ k.toList = dk.drop 32 ∧
      exec .scryptC s = .next
        { s with mask := m, key := k, err := .none, scratch := [], busy := false, done := true }) ∧
    (s.publen.toNat ≠ 33 →
      exec .scryptC s = .next { s with err := .length, scratch := [], busy := false, done := true })

/-- R270: AES_ENC writes one block to DOUT[0:16); DOUT[16:32) is unchanged. -/
def Obligations.AesEncWritesOneBlock : Prop :=
  decode 0x00000030 = some .aesEnc ∧ ∀ s : State, ∃ d : Bytes 32,
    d.toList = aes256Enc s.key.toList (s.din.toList.take 16) ++ s.dout.toList.drop 16 ∧
    exec .aesEnc s = .next
      { s with dout := d, err := .none, scratch := [], busy := false, done := true }

/-- R271: AES_DEC writes one block to DOUT[0:16); DOUT[16:32) is unchanged. -/
def Obligations.AesDecWritesOneBlock : Prop :=
  decode 0x00000031 = some .aesDec ∧ ∀ s : State, ∃ d : Bytes 32,
    d.toList = aes256Dec s.key.toList (s.din.toList.take 16) ++ s.dout.toList.drop 16 ∧
    exec .aesDec s = .next
      { s with dout := d, err := .none, scratch := [], busy := false, done := true }

/-- R265, R272: ENC_MASKED32: each half of DIN ⊕ MASK encrypted on its own. -/
def Obligations.EncMasked32EncryptsBothHalves : Prop :=
  decode 0x00000032 = some .encMasked32 ∧ ∀ s : State, ∃ d : Bytes 32,
    d.toList =
      aes256Enc s.key.toList ((xorBytes s.din.toList s.mask.toList).take 16) ++
        aes256Enc s.key.toList ((xorBytes s.din.toList s.mask.toList).drop 16) ∧
    exec .encMasked32 s = .next
      { s with dout := d, err := .none, scratch := [], busy := false, done := true }

/-- R266, R273: DEC_MASKED32: each half of DIN decrypted on its own, then XORed with MASK. -/
def Obligations.DecMasked32DecryptsBothHalves : Prop :=
  decode 0x00000033 = some .decMasked32 ∧ ∀ s : State, ∃ d : Bytes 32,
    d.toList =
      xorBytes (aes256Dec s.key.toList (s.din.toList.take 16) ++
        aes256Dec s.key.toList (s.din.toList.drop 16)) s.mask.toList ∧
    exec .decMasked32 s = .next
      { s with dout := d, err := .none, scratch := [], busy := false, done := true }

/-- R267, R274: DEC_MASKED24: X from DIN[8:24) and MASK[16:32), Y from DIN[0:8) ‖ X[0:8) and MASK[0:16);
DOUT[0:24) is Y ‖ X[8:16) and DOUT[24:32) is unchanged. -/
def Obligations.DecMasked24RecoversTheSeed : Prop :=
  decode 0x00000034 = some .decMasked24 ∧ ∀ s : State, ∃ (x y : List Byte) (d : Bytes 32),
    x = xorBytes (aes256Dec s.key.toList ((s.din.toList.take 24).drop 8)) (s.mask.toList.drop 16) ∧
    y = xorBytes (aes256Dec s.key.toList (s.din.toList.take 8 ++ x.take 8)) (s.mask.toList.take 16) ∧
    d.toList = y ++ x.drop 8 ++ s.dout.toList.drop 24 ∧
    exec .decMasked24 s = .next
      { s with dout := d, err := .none, scratch := [], busy := false, done := true }

/-- R330: EC_BASEMUL.U. For 1 ≤ k < n it completes with PUBLEN = 65 and PUB the uncompressed form of k·G;
for k = 0 or k ≥ n it ends with SCALAR, PUB and PUBLEN unchanged. -/
def Obligations.EcBasemulUWritesTheUncompressedPoint : Prop :=
  decode 0x00000040 = some .ecBasemulU ∧ ∀ s : State,
    (1 ≤ beNat s.sca.toList → beNat s.sca.toList < curveN → ∃ d : Bytes 65,
      (∀ x y, baseMul (beNat s.sca.toList) = .affine x y →
        d.toList = 0x04#8 :: natBe 32 x ++ natBe 32 y) ∧
      exec .ecBasemulU s = .next
        { s with
          pub := d, publen := 65#7, err := .none, scratch := [], busy := false, done := true }) ∧
    (beNat s.sca.toList = 0 ∨ curveN ≤ beNat s.sca.toList →
      exec .ecBasemulU s = .next
        { s with err := .scalar, scratch := [], busy := false, done := true })

/-- R330: EC_BASEMUL.C. For 1 ≤ k < n it completes with PUBLEN = 33, PUB[0:33) the compressed form of k·G
and PUB[33:65) zero; for k = 0 or k ≥ n it ends with SCALAR, PUB and PUBLEN unchanged. -/
def Obligations.EcBasemulCWritesTheCompressedPoint : Prop :=
  decode 0x00000140 = some .ecBasemulC ∧ ∀ s : State,
    (1 ≤ beNat s.sca.toList → beNat s.sca.toList < curveN → ∃ d : Bytes 65,
      (∀ x y, baseMul (beNat s.sca.toList) = .affine x y →
        d.toList = natBe 1 (2 + y % 2) ++ natBe 32 x ++ List.replicate 32 0#8) ∧
      exec .ecBasemulC s = .next
        { s with
          pub := d, publen := 33#7, err := .none, scratch := [], busy := false, done := true }) ∧
    (beNat s.sca.toList = 0 ∨ curveN ≤ beNat s.sca.toList →
      exec .ecBasemulC s = .next
        { s with err := .scalar, scratch := [], busy := false, done := true })

/-- R325, R331: MODMUL: SCA takes the product modulo n as 32 big-endian bytes, whatever the operands. -/
def Obligations.ModmulWritesTheProduct : Prop :=
  decode 0x00000041 = some .modmul ∧ ∀ s : State, ∃ d : Bytes 32,
    beNat d.toList = beNat s.sca.toList * beNat s.scb.toList % curveN ∧
    exec .modmul s = .next
      { s with sca := d, err := .none, scratch := [], busy := false, done := true }

/-- R332: FACTORB: SCB takes the double digest of DOUT[0:24), unreduced. -/
def Obligations.FactorbWritesTheBlindingFactor : Prop :=
  decode 0x00000042 = some .factorb ∧ ∀ s : State, ∃ d : Bytes 32,
    d.toList = sha256 (sha256 (s.dout.toList.take 24)) ∧
    exec .factorb s = .next
      { s with scb := d, err := .none, scratch := [], busy := false, done := true }

/-- R390: ZEROIZE: every buffer and both lengths zero; LASTCMD, WBUSY and IRQ_EN are kept. -/
def Obligations.ZeroizeClearsEveryBuffer : Prop :=
  decode 0x000000F0 = some .zeroize ∧ ∀ s : State, ∃ t : State, exec .zeroize s = .next t ∧ buffersZero t = true ∧
    t.busy = false ∧ t.done = true ∧ t.err = .none ∧ t.wbusy = s.wbusy ∧ t.lastcmd = s.lastcmd ∧
    t.doneIe = s.doneIe ∧ t.pend = s.pend ∧ t.inputs = s.inputs ∧ t.rdata = s.rdata ∧
    ∀ a, Memory.read t.scratch a = 0#8

/-! ### The read and write sets -/

/-- R51, R385: a command's result code and the bytes it writes are a function of the buffers and lengths
R51 lists as read for it: not of SCRATCH, of any other buffer or register, or of when it runs. -/
def Obligations.ResultsDependOnlyOnTheReadSet : Prop :=
  ∀ (i : Instr) (s s' t t' : State), readsAgree i s s' → exec i s = .next t → exec i s' = .next t' →
    t'.err = t.err ∧
    (t.err = .none →
      (∀ (b : Buffer) (j : Nat), writesByte i b j = true →
        (bufferBytes t' b).getD j 0#8 = (bufferBytes t b).getD j 0#8) ∧
      (writesVlen i = true → t'.vlen = t.vlen) ∧ (writesPublen i = true → t'.publen = t.publen))

/-- R51: a byte of a buffer that R51 does not list as written by a command is as before, and so are VLEN
and PUBLEN. -/
def Obligations.CommandsWriteOnlyTheirBuffers : Prop :=
  ∀ (i : Instr) (s t : State), exec i s = .next t →
    (∀ (b : Buffer) (j : Nat), writesByte i b j = false →
      (bufferBytes t b).getD j 0#8 = (bufferBytes s b).getD j 0#8) ∧
    (writesVlen i = false → t.vlen = s.vlen) ∧ (writesPublen i = false → t.publen = s.publen)

/-! ### The algorithms -/

/-- R151: the padding, with its z = (55 - len(M)) mod 64; the padded length is the least multiple of 64
that is at least len(M) + 9; 55, 56 and 256 bytes give one, two and five blocks. -/
def Obligations.PaddingFillsWholeBlocks : Prop :=
  (∀ m : List Byte, ∃ z < 64, (z + m.length) % 64 = 55 ∧
      shaPad m = m ++ 0x80#8 :: List.replicate z 0#8 ++ natBe 8 (8 * m.length) ∧
      (shaPad m).length % 64 = 0 ∧ m.length + 9 ≤ (shaPad m).length ∧
      ∀ l, l % 64 = 0 → m.length + 9 ≤ l → (shaPad m).length ≤ l) ∧
    ∀ m : List Byte, (m.length = 55 → (shaPad m).length = 64) ∧
      (m.length = 56 → (shaPad m).length = 128) ∧ (m.length = 256 → (shaPad m).length = 320)

/-- R253, R261: SBOX[x] is the affine map of x's multiplicative inverse (0 for 0), and INV_SBOX undoes it
on every byte. -/
def Obligations.SboxIsTheAffineInverse : Prop :=
  ∀ x : Byte, (∃ y : Byte, (x = 0#8 → y = 0#8) ∧ (x ≠ 0#8 → gfMul x y = 1#8) ∧
      sbox x = y ^^^ y.rotateLeft 1 ^^^ y.rotateLeft 2 ^^^ y.rotateLeft 3 ^^^ y.rotateLeft 4 ^^^ 0x63#8) ∧
    invSbox (sbox x) = x ∧ sbox (invSbox x) = x

/-- R263: for every key and block, decryption undoes encryption and encryption undoes decryption. -/
def Obligations.AesDecryptionInvertsEncryption : Prop :=
  ∀ k p : List Byte, k.length = 32 → p.length = 16 →
    aes256Dec k (aes256Enc k p) = p ∧ aes256Enc k (aes256Dec k p) = p

/-- R266: on the machine, ENC_MASKED32, its output moved to DIN, and DEC_MASKED32 under the same KEY and
MASK give back the plaintext. -/
def Obligations.MaskedDecryptionRestoresThePlaintext : Prop :=
  ∀ s t u : State, exec .encMasked32 s = .next t → exec .decMasked32 { t with din := t.dout } = .next u →
    u.dout = s.din

/-- R268: DecryptMasked24 undoes EncryptMasked24. -/
def Obligations.SeedDecryptionInvertsItsEncryption : Prop :=
  ∀ s m k : List Byte, s.length = 24 → m.length = 32 → k.length = 32 →
    decryptMasked24 (encryptMasked24 s m k) m k = s

/-- R323: the scalar multiplication the machine performs is G added to itself k times. (Its method is the
model's choice, log 9.) -/
def Obligations.ScalarMultiplicationIsRepeatedAddition : Prop :=
  ∀ k : Nat, k < 2 ^ 256 → baseMul k = pointMulRepeated basePoint k

/-- R320, R323: for 1 ≤ k < n, k·G is a point of the curve other than O. -/
def Obligations.ScalarsInRangeGiveCurvePoints : Prop :=
  ∀ k : Nat, 1 ≤ k → k < curveN → ∃ x y, baseMul k = .affine x y ∧ onCurve (.affine x y) = true

/-- R324: the SEC 1 forms of a point: 33 bytes, prefix 02 or 03 by y's parity, then x; 65 bytes, 04, x,
y; coordinates big-endian. -/
def Obligations.SerializedPointsHaveTheirForm : Prop :=
  ∀ x y : Nat, x < 2 ^ 256 → y < 2 ^ 256 →
    (∃ bx : List Byte, bx.length = 32 ∧ beNat bx = x ∧
      serializeCompressed (.affine x y) = (if y % 2 = 0 then 0x02#8 else 0x03#8) :: bx) ∧
    ∃ bx bz : List Byte, bx.length = 32 ∧ bz.length = 32 ∧ beNat bx = x ∧ beNat bz = y ∧
      serializeUncompressed (.affine x y) = 0x04#8 :: bx ++ bz

/-! ### The assembler -/

/-- R135, R136: each command's mnemonic, in any letter case, and each of the five aliases assemble to the
command's word; EC_BASEMUL alone, without its suffix, is no name. -/
def Obligations.AssemblerNamesGiveTheirWords : Prop :=
  (∀ (i : Instr) (name : String), name.toList.map Char.toUpper = (mnemonicOf i).toList →
      assemble name = some (encode i)) ∧
    assemble "ENCRYPTMASKED" = some (encode .encMasked32) ∧
    assemble "DECRYPTMASKED" = some (encode .decMasked32) ∧
    assemble "DECRYPTMASKED24" = some (encode .decMasked24) ∧
    assemble "SCALARTOPOINT" = some (encode .ecBasemulC) ∧
    assemble "MODMULTIPLY" = some (encode .modmul) ∧ assemble "EC_BASEMUL" = none

/-! ### The host sequences -/

/-- R410, R411, R414: no silent wrong key. Decrypt ends in an error or returns a key of 32 bytes, in the
scalar range, whose recomputed address checksum equals the record's stored one. (That a key is returned at
all: EncryptThenDecryptRoundTrips. The host model's conventions: log 17 to 22.) -/
def Obligations.DecryptReturnsOnlyVerifiedKeys : Prop :=
  ∀ (r : Record) (p : List Byte) (network : Network) (y : Session), y.gkb.busy = false →
    (∃ e : HostError, (decryptRecord r p network y).2 = .error e) ∨
    ∃ (k : List Byte) (c : Bool), (decryptRecord r p network y).2 = .ok (k, c) ∧
      k.length = 32 ∧ c = flagCompressed r.flag ∧ scalarInRange (beNat k) = true ∧
      ∃ a, address (publicKey c (beNat k)) network = some a ∧ checkBytes (ascii a) = r.checksum

/-- R412, R478: every exit of a host sequence leaves every buffer and both lengths zero; only the exits
before the first buffer write (FormatError, InputTooLong, the lot/sequence rejection) leave the GKB as it
was instead. On every exit the host holds no copy of the passphrase, MASK, KEY or the private key; a key it
returns is in the outcome. (The host layer's conventions are the model's choice: log 21, its own copies as
a record of optional byte strings; log 19, each WAIT run to its end at once and no reset in mid-sequence;
log 22, where a WRBUF of a key longer than 32 bytes would leave the window.) -/
def Obligations.HostSequencesEndZeroized : Prop :=
  ∀ (p : List Byte) (network : Network) (y : Session), y.gkb.busy = false →
    (∀ text : List Char, ∃ (s : State) (o : Except HostError (List Byte × Bool)),
      decryptText text p network y = ({ gkb := s, copies := ⟨none, none, none, none⟩ }, o) ∧
      s.busy = false ∧
      (buffersZero s = true ∨ (s = y.gkb ∧
        (o = .error .formatError ∨ o = .error .inputTooLong ∨ o = .error .unsupportedFeature)))) ∧
    ∀ (k : List Byte) (c : Bool), ∃ (s : State) (o : Except HostError (List Char)),
      encryptKey k c p network y = ({ gkb := s, copies := ⟨none, none, none, none⟩ }, o) ∧
      s.busy = false ∧ (buffersZero s = true ∨ (s = y.gkb ∧ o = .error .inputTooLong))

/-- R407: an EC-multiply record with the lot/sequence bit fails UnsupportedFeature before any command: the
GKB is untouched. (The host layer: log 18, log 21.) -/
def Obligations.LotSequenceRecordsAreRejected : Prop :=
  ∀ (r : Record) (p : List Byte) (network : Network) (y : Session), p.length ≤ 256 →
    flagNonEc r.flag = false → flagLotSequence r.flag = true →
    (decryptRecord r p network y).2 = .error .unsupportedFeature ∧
      (decryptRecord r p network y).1.gkb = y.gkb

/-- R415: for every key in range, either form, every passphrase of at most 256 bytes and every known
network, Decrypt of Encrypt's text gives the key and the form back. And the standard vectors: each of the
six published records decodes with its flag; its key is what the cipher gives under the KDF outputs the
spec lists; its address is the published one and has the stored checksum; and Decrypt returns that key
exactly for the passphrases that lead to it. (The host layer's conventions are the model's: log 17 to
19, log 21; log 20, RIPEMD-160 is the published function.) -/
def Obligations.EncryptThenDecryptRoundTrips : Prop :=
  (∀ (k p : List Byte) (c : Bool) (network : Network) (v : Byte) (y y' : Session),
    k.length = 32 → scalarInRange (beNat k) = true → p.length ≤ 256 →
    networkVersion network = some v → y.gkb.busy = false → y'.gkb.busy = false →
    ∃ (text : List Char) (t t' : Session), encryptKey k c p network y = (t, .ok text) ∧
      decryptText text p network y' = (t', .ok (k, c))) ∧
  ∀ v ∈ standardVectors, ∃ r : Record, decodeRecord v.text.toList = some r ∧
    flagCompressed r.flag = v.compressed ∧
    (match v.passfactor with
      | none => flagNonEc r.flag = true ∧
          keyOfStageA r (natBe 32 v.mask ++ natBe 32 v.key) = natBe 32 v.privateKey
      | some f => flagNonEc r.flag = false ∧
          keyOfStageC r f (natBe 32 v.mask ++ natBe 32 v.key) = natBe 32 v.privateKey) ∧
    address (publicKey v.compressed v.privateKey) .bitcoinMain = some v.address.toList ∧
    checkBytes (ascii v.address.toList) = r.checksum ∧
    ∀ (p : List Byte) (y : Session), p.length ≤ 256 → y.gkb.busy = false →
      ((decryptText v.text.toList p .bitcoinMain y).2 =
          .ok (natBe 32 v.privateKey, v.compressed) ↔
        recoveredKey r p = some (natBe 32 v.privateKey))
end

