-- ==== Sys2Proof/Laws/ByteString.lean ====
section
/-! SUPPORT. What the byte-string primitives do: lengths, contents, and the round trip of big-endian
integers (R14, R15). -/

namespace Sys2Proof.Machine

@[simp] theorem length_slice (b : List Byte) (i j : Nat) :
    (slice b i j).length = min (j - i) (b.length - i) := by
  simp [slice]

@[simp] theorem slice_zero_of_le {b : List Byte} {n : Nat} (h : b.length ≤ n) : slice b 0 n = b := by
  simp [slice, List.take_of_length_le h]

@[simp] theorem length_xorBytes (a b : List Byte) :
    (xorBytes a b).length = min a.length b.length := by
  simp [xorBytes]

@[simp] theorem length_natBe (n x : Nat) : (natBe n x).length = n := by
  induction n generalizing x with
  | zero => rfl
  | succ n ih => simp [natBe, ih]

/-- Appending a last byte multiplies by 256 and adds the byte (R15). -/
theorem beNat_append_singleton (b : List Byte) (x : Byte) :
    beNat (b ++ [x]) = beNat b * 256 + x.toNat := by
  simp [beNat, List.foldl_append]

/-- `BE(BE_n(x)) = x` for x below 256^n (R15). -/
theorem beNat_natBe {n x : Nat} (h : x < 256 ^ n) : beNat (natBe n x) = x := by
  induction n generalizing x with
  | zero => simp only [pow_zero, Nat.lt_one_iff] at h; simp [natBe, beNat, h]
  | succ n ih =>
    have hx : x / 256 < 256 ^ n := by
      rw [Nat.div_lt_iff_lt_mul (by norm_num)]; rwa [pow_succ] at h
    rw [natBe, beNat_append_singleton, ih hx, BitVec.toNat_ofNat]
    omega

/-- A big-endian integer of n bytes is below 256^n (R15). -/
theorem beNat_lt (b : List Byte) : beNat b < 256 ^ b.length := by
  induction b using List.reverseRecOn with
  | nil => simp [beNat]
  | append_singleton b x ih =>
    rw [beNat_append_singleton, List.length_append, List.length_singleton, pow_succ]
    have := x.isLt
    omega

@[simp] theorem length_beWord (w : Word) : (beWord w).length = 4 := rfl

@[simp] theorem length_leWord (w : Word) : (leWord w).length = 4 := rfl

@[simp] theorem length_chunks (k n : Nat) (b : List Byte) : (chunks k n b).length = n := by
  induction n generalizing b with
  | zero => rfl
  | succ n ih => simp [chunks, ih]

/-- The pieces of a string of n·k bytes are the string. -/
theorem flatten_chunks {k n : Nat} {b : List Byte} (h : b.length = n * k) :
    (chunks k n b).flatten = b := by
  induction n generalizing b with
  | zero => simp only [Nat.zero_mul, List.length_eq_zero_iff] at h; simp [chunks, h]
  | succ n ih =>
    have hd : (b.drop k).length = n * k := by rw [List.length_drop, h, Nat.succ_mul]; omega
    rw [chunks, List.flatten_cons, ih hd, List.take_append_drop]

@[simp] theorem length_toList {n : Nat} (x : Bytes n) : x.toList.length = n := x.length_eq

@[simp] theorem toList_zero (n : Nat) : (Bytes.zero n).toList = List.replicate n 0#8 := rfl

/-- Two buffers with the same bytes are the same buffer. -/
theorem bytes_ext {n : Nat} {x y : Bytes n} (h : x.toList = y.toList) : x = y := by
  cases x; cases y; cases h; rfl

/-- `X[0:len l) <- l` for a string that fits: the string, then the bytes past it unchanged. -/
theorem toList_overwrite {n : Nat} (x : Bytes n) {l : List Byte} (h : l.length ≤ n) :
    (overwrite x l).toList = l ++ x.toList.drop l.length := by
  have hx := x.length_eq
  exact List.take_of_length_le (by simp only [List.length_append, List.length_drop]; omega)

/-- A string of the buffer's length replaces all of it. -/
theorem toList_overwrite_full {n : Nat} (x : Bytes n) {l : List Byte} (h : l.length = n) :
    (overwrite x l).toList = l := by
  rw [toList_overwrite x h.le, List.drop_eq_nil_of_le (by rw [x.length_eq, h]), List.append_nil]

/-- The buffer holding a string that fits: the string, then zeros. -/
theorem toList_bytesOf {n : Nat} {l : List Byte} (h : l.length ≤ n) :
    (bytesOf n l).toList = l ++ List.replicate (n - l.length) 0#8 := by
  rw [bytesOf, toList_overwrite _ h, toList_zero, List.drop_replicate]

/-- The buffer holding a string of its own length is that string. -/
theorem toList_bytesOf_full {n : Nat} {l : List Byte} (h : l.length = n) :
    (bytesOf n l).toList = l :=
  toList_overwrite_full _ h

@[simp] theorem toList_setByte {n : Nat} (x : Bytes n) (i : Nat) (v : Byte) :
    (setByte x i v).toList = x.toList.set i v := rfl

end Sys2Proof.Machine
end

