-- ==== Sys2Proof/Laws/Algorithms.lean ====
section
/-! SUPPORT. The lengths of the algorithms' outputs, and the exact meaning of the square-and-multiply
exponentiation (R157, R200 to R215, R251, R324, R322). -/

namespace Sys2Proof.Machine

/-! ### Hash and key derivation -/

@[simp] theorem length_sha256 (m : List Byte) : (sha256 m).length = 32 := rfl

@[simp] theorem length_sha256d (m : List Byte) : (sha256d m).length = 32 := rfl

@[simp] theorem length_hmac (k m : List Byte) : (hmac k m).length = 32 := rfl

theorem length_pbkdf2Rounds (p : List Byte) (n : Nat) {u t : List Byte} (h : t.length = 32) :
    (pbkdf2Rounds p n u t).length = 32 := by
  induction n generalizing u t with
  | zero => exact h
  | succ n ih => exact ih (by simp [h])

@[simp] theorem length_pbkdf2Block (p s : List Byte) (c i : Nat) :
    (pbkdf2Block p s c i).length = 32 :=
  length_pbkdf2Rounds p (c - 1) (length_hmac ..)

@[simp] theorem length_pbkdf2 (p s : List Byte) (c dkLen : Nat) :
    (pbkdf2 p s c dkLen).length = dkLen := by
  have h : (List.map List.length ((List.range' 1 ((dkLen + 31) / 32)).map (pbkdf2Block p s c))).sum =
      (dkLen + 31) / 32 * 32 := by
    simp [List.map_map, Function.comp_def]
  simp only [pbkdf2, List.length_take, List.length_flatten, h]
  omega

@[simp] theorem length_scrypt (p s : List Byte) (n r lanes dkLen : Nat) :
    (scrypt p s n r lanes dkLen).length = dkLen :=
  length_pbkdf2 ..

@[simp] theorem length_kdfStageA (p s : List Byte) : (kdfStageA p s).length = 64 := length_scrypt ..

@[simp] theorem length_kdfStageB (p s : List Byte) : (kdfStageB p s).length = 32 := length_scrypt ..

@[simp] theorem length_kdfStageC (p s : List Byte) : (kdfStageC p s).length = 64 := length_scrypt ..

/-! ### AES -/

@[simp] theorem length_aesState (f : Nat → Nat → Byte) : (aesState f).length = 16 := by
  simp [aesState]

@[simp] theorem length_addRoundKey (ws : List (List Byte)) (r : Nat) (s : List Byte) :
    (addRoundKey ws r s).length = 16 := length_aesState _

@[simp] theorem length_aes256Enc (k p : List Byte) : (aes256Enc k p).length = 16 :=
  length_addRoundKey ..

@[simp] theorem length_aes256Dec (k c : List Byte) : (aes256Dec k c).length = 16 :=
  length_addRoundKey ..

@[simp] theorem length_encryptMasked (p m k : List Byte) : (encryptMasked p m k).length = 32 := by
  simp [encryptMasked]

theorem length_decryptMasked {c m k : List Byte} (h : m.length = 32) :
    (decryptMasked c m k).length = 32 := by
  simp [decryptMasked, h]

theorem length_decryptMasked24 {c m k : List Byte} (h : m.length = 32) :
    (decryptMasked24 c m k).length = 24 := by
  simp [decryptMasked24, h]

/-- Byte i of an AES state built from its entries (R251). -/
theorem getD_aesState (f : Nat → Nat → Byte) {i : Nat} (h : i < 16) :
    (aesState f).getD i 0 = f (i % 4) (i / 4) := by
  simp [aesState, List.getD, h]

/-- The entries of an AES state built from its entries (R251). -/
theorem aesEntry_aesState (f : Nat → Nat → Byte) {r c : Nat} (hr : r < 4) (hc : c < 4) :
    aesEntry (aesState f) r c = f r c := by
  rw [aesEntry, getD_aesState f (by omega)]
  congr 1 <;> omega

/-! ### Curve -/

/-- Square and multiply computes the power (R322: the inverse is z^(p-2) mod p). -/
theorem powModBits_eq (m : Nat) : ∀ bits b e : Nat, e < 2 ^ bits →
    powModBits m bits b e = b ^ e % m
  | 0, b, e, h => by
    have : e = 0 := by simpa using h
    simp [powModBits, this]
  | bits + 1, b, e, h => by
    have hlt : e / 2 < 2 ^ bits := by
      rw [Nat.div_lt_iff_lt_mul (by norm_num)]; rwa [pow_succ] at h
    have ih := powModBits_eq m bits (b * b % m) (e / 2) hlt
    have hsq : (b * b % m) ^ (e / 2) % m = b ^ (2 * (e / 2)) % m := by
      rw [← Nat.pow_mod, pow_mul, sq]
    simp only [powModBits, ih, hsq]
    split
    · have he : e = 2 * (e / 2) + 1 := by omega
      conv_rhs => rw [he, pow_succ, Nat.mul_comm]
      rw [Nat.mul_mod, Nat.mod_mod, ← Nat.mul_mod]
    · have he : e = 2 * (e / 2) := by omega
      conv_rhs => rw [he]

/-- `fieldInv z` is z^(p-2) mod p, the inverse R322 names. -/
theorem fieldInv_eq (z : Nat) : fieldInv z = z ^ (curveP - 2) % curveP :=
  powModBits_eq curveP 256 z (curveP - 2) (by decide +kernel)

theorem length_serializeCompressed (x y : Nat) :
    (serializeCompressed (.affine x y)).length = 33 := by
  simp [serializeCompressed]

theorem length_serializeUncompressed (x y : Nat) :
    (serializeUncompressed (.affine x y)).length = 65 := by
  simp [serializeUncompressed]

end Sys2Proof.Machine
end

