-- ==== Sys2Proof/Laws/Memory.lean ====
section
/-! SUPPORT. SCRATCH's memory: read after write, and the canonical form every operation keeps. -/

namespace Sys2Proof.Machine

@[simp] theorem memory_read_zeroed (a : Nat) : Memory.read Memory.zeroed a = 0#8 := rfl

@[simp] theorem memory_wf_zeroed : Memory.wf Memory.zeroed = true := rfl

@[simp] theorem memory_inScratch_zeroed : Memory.inScratch Memory.zeroed = true := rfl

theorem memory_wf_iff (m : Memory) : Memory.wf m = true ↔
    (m.Pairwise fun c d => c.1 < d.1) ∧ ∀ c ∈ m, c.2 ≠ unlistedByte := by
  simp [Memory.wf]

/-- Every address a write lists was listed before or is the one written. -/
theorem memory_write_addresses {m : Memory} {a : Nat} {v : Byte} {c : Host.Cell}
    (h : c ∈ Memory.write m a v) : c ∈ m ∨ (c = (a, v) ∧ v ≠ unlistedByte) := by
  induction m with
  | nil =>
    simp only [Memory.write] at h
    split at h <;> simp_all
  | cons d rest ih =>
    simp only [Memory.write] at h
    split at h
    · split at h
      · exact .inl h
      · rcases List.mem_cons.mp h with rfl | h
        · exact .inr ⟨rfl, ‹_›⟩
        · exact .inl h
    · split at h
      · split at h
        · exact .inl (List.mem_cons_of_mem _ h)
        · rcases List.mem_cons.mp h with rfl | h
          · exact .inr ⟨rfl, ‹_›⟩
          · exact .inl (List.mem_cons_of_mem _ h)
      · rcases List.mem_cons.mp h with rfl | h
        · exact .inl (List.mem_cons_self ..)
        · exact (ih h).imp_left (List.mem_cons_of_mem _)

/-- A write keeps the canonical form. -/
theorem memory_wf_write {m : Memory} (h : Memory.wf m = true) (a : Nat) (v : Byte) :
    Memory.wf (Memory.write m a v) = true := by
  rw [memory_wf_iff] at h ⊢
  refine ⟨?_, fun c hc => (memory_write_addresses hc).elim (h.2 c) fun e => by rw [e.1]; exact e.2⟩
  obtain ⟨hs, -⟩ := h
  induction m with
  | nil => simp only [Memory.write]; split <;> simp
  | cons d rest ih =>
    obtain ⟨hd, hr⟩ := List.pairwise_cons.mp hs
    simp only [Memory.write]
    split
    · rename_i hlt
      split
      · exact hs
      · refine List.pairwise_cons.mpr ⟨fun c hc => ?_, hs⟩
        rcases List.mem_cons.mp hc with rfl | hc
        · exact hlt
        · exact hlt.trans (hd c hc)
    · split
      · rename_i heq
        subst heq
        split
        · exact hr
        · exact List.pairwise_cons.mpr ⟨hd, hr⟩
      · rename_i hge hne
        refine List.pairwise_cons.mpr ⟨fun c hc => ?_, ih hr⟩
        rcases memory_write_addresses hc with hc | ⟨rfl, -⟩
        · exact hd c hc
        · simp only; omega

/-- In a canonical memory whose addresses all lie above one address, that address is unlisted. -/
theorem memory_read_below {m : Memory} {a : Nat} (h : ∀ c ∈ m, a < c.1) :
    Memory.read m a = unlistedByte := by
  have : m.find? (fun c => c.1 == a) = none := by
    rw [List.find?_eq_none]
    intro c hc
    have := h c hc
    simp only [beq_iff_eq]
    omega
  rw [Memory.read, this]

theorem memory_read_cons (d : Host.Cell) (rest : Memory) (a : Nat) :
    Memory.read (d :: rest) a = if d.1 = a then d.2 else Memory.read rest a := by
  have hb : (d.1 == a) = decide (d.1 = a) := rfl
  by_cases h : d.1 = a <;> simp [Memory.read, List.find?, hb, h]

/-- Reading after a write: the byte written at its address, every other byte as before. -/
theorem memory_read_write {m : Memory} (h : Memory.wf m = true) (a b : Nat) (v : Byte) :
    Memory.read (Memory.write m a v) b = if b = a then v else Memory.read m b := by
  obtain ⟨hs, -⟩ := (memory_wf_iff m).mp h
  clear h
  induction m with
  | nil =>
    simp only [Memory.write]
    split
    · rename_i hv; simp [Memory.read, hv]
    · rw [memory_read_cons]; simp [eq_comm]
  | cons d rest ih =>
    obtain ⟨hd, hr⟩ := List.pairwise_cons.mp hs
    simp only [Memory.write]
    split
    · rename_i hlt
      split
      · rename_i hv
        by_cases hba : b = a
        · subst hba
          rw [if_pos rfl, hv]
          apply memory_read_below
          intro c hc
          rcases List.mem_cons.mp hc with rfl | hc
          · exact hlt
          · exact hlt.trans (hd c hc)
        · rw [if_neg hba]
      · rw [memory_read_cons]; simp [eq_comm]
    · split
      · rename_i heq
        split
        · rename_i hv
          by_cases hba : b = a
          · subst hba
            rw [if_pos rfl, hv]
            exact memory_read_below fun c hc => heq ▸ hd c hc
          · rw [if_neg hba, memory_read_cons, if_neg (by omega)]
        · simp only [memory_read_cons]
          by_cases hba : b = a
          · subst hba; simp
          · rw [if_neg (by simpa using fun e => hba e.symm), if_neg hba, if_neg (by omega)]
      · rename_i hge hne
        simp only [memory_read_cons, ih hr]
        by_cases hda : d.1 = b
        · rw [if_pos hda, if_pos hda, if_neg (by omega)]
        · rw [if_neg hda, if_neg hda]

/-- A write at an address of SCRATCH lists addresses of SCRATCH only (R11). -/
theorem memory_inScratch_write {m : Memory} (h : Memory.inScratch m = true) {a : Nat}
    (ha : a < Config.scratchBytes) (v : Byte) : Memory.inScratch (Memory.write m a v) = true := by
  rw [Memory.inScratch, List.all_eq_true] at h ⊢
  intro c hc
  rcases memory_write_addresses hc with hc | ⟨rfl, -⟩
  · exact h c hc
  · simpa using ha

/-- Reset's SCRATCH is in canonical form. -/
theorem memory_wf_reset : Memory.wf State.reset.scratch = true := rfl

end Sys2Proof.Machine
end

