-- ==== Sys2Proof/Laws/State.lean ====
section
/-! SUPPORT. The named updates of State, one lemma per field per update, each true by rfl: later proofs
rewrite with these and unfold no update. -/

namespace Sys2Proof.Machine

/-! ### endCommand -/

@[simp] theorem endCommand_lastcmd (c : ErrCode) (s : State) : (endCommand c s).lastcmd = s.lastcmd := rfl
@[simp] theorem endCommand_busy (c : ErrCode) (s : State) : (endCommand c s).busy = false := rfl
@[simp] theorem endCommand_done (c : ErrCode) (s : State) : (endCommand c s).done = true := rfl
@[simp] theorem endCommand_wbusy (c : ErrCode) (s : State) : (endCommand c s).wbusy = s.wbusy := rfl
@[simp] theorem endCommand_err (c : ErrCode) (s : State) : (endCommand c s).err = c := rfl
@[simp] theorem endCommand_doneIe (c : ErrCode) (s : State) : (endCommand c s).doneIe = s.doneIe := rfl
@[simp] theorem endCommand_vlen (c : ErrCode) (s : State) : (endCommand c s).vlen = s.vlen := rfl
@[simp] theorem endCommand_publen (c : ErrCode) (s : State) : (endCommand c s).publen = s.publen := rfl
@[simp] theorem endCommand_key (c : ErrCode) (s : State) : (endCommand c s).key = s.key := rfl
@[simp] theorem endCommand_mask (c : ErrCode) (s : State) : (endCommand c s).mask = s.mask := rfl
@[simp] theorem endCommand_din (c : ErrCode) (s : State) : (endCommand c s).din = s.din := rfl
@[simp] theorem endCommand_dout (c : ErrCode) (s : State) : (endCommand c s).dout = s.dout := rfl
@[simp] theorem endCommand_chk (c : ErrCode) (s : State) : (endCommand c s).chk = s.chk := rfl
@[simp] theorem endCommand_osalt (c : ErrCode) (s : State) : (endCommand c s).osalt = s.osalt := rfl
@[simp] theorem endCommand_sca (c : ErrCode) (s : State) : (endCommand c s).sca = s.sca := rfl
@[simp] theorem endCommand_scb (c : ErrCode) (s : State) : (endCommand c s).scb = s.scb := rfl
@[simp] theorem endCommand_pub (c : ErrCode) (s : State) : (endCommand c s).pub = s.pub := rfl
@[simp] theorem endCommand_vbuf (c : ErrCode) (s : State) : (endCommand c s).vbuf = s.vbuf := rfl
@[simp] theorem endCommand_pend (c : ErrCode) (s : State) : (endCommand c s).pend = s.pend := rfl
@[simp] theorem endCommand_scratch (c : ErrCode) (s : State) : (endCommand c s).scratch = Memory.zeroed := rfl
@[simp] theorem endCommand_inputs (c : ErrCode) (s : State) : (endCommand c s).inputs = s.inputs := rfl
@[simp] theorem endCommand_rdata (c : ErrCode) (s : State) : (endCommand c s).rdata = s.rdata := rfl

/-! ### markDropped -/

@[simp] theorem markDropped_lastcmd (s : State) : (markDropped s).lastcmd = s.lastcmd := rfl
@[simp] theorem markDropped_busy (s : State) : (markDropped s).busy = s.busy := rfl
@[simp] theorem markDropped_done (s : State) : (markDropped s).done = s.done := rfl
@[simp] theorem markDropped_wbusy (s : State) : (markDropped s).wbusy = true := rfl
@[simp] theorem markDropped_err (s : State) : (markDropped s).err = s.err := rfl
@[simp] theorem markDropped_doneIe (s : State) : (markDropped s).doneIe = s.doneIe := rfl
@[simp] theorem markDropped_vlen (s : State) : (markDropped s).vlen = s.vlen := rfl
@[simp] theorem markDropped_publen (s : State) : (markDropped s).publen = s.publen := rfl
@[simp] theorem markDropped_key (s : State) : (markDropped s).key = s.key := rfl
@[simp] theorem markDropped_mask (s : State) : (markDropped s).mask = s.mask := rfl
@[simp] theorem markDropped_din (s : State) : (markDropped s).din = s.din := rfl
@[simp] theorem markDropped_dout (s : State) : (markDropped s).dout = s.dout := rfl
@[simp] theorem markDropped_chk (s : State) : (markDropped s).chk = s.chk := rfl
@[simp] theorem markDropped_osalt (s : State) : (markDropped s).osalt = s.osalt := rfl
@[simp] theorem markDropped_sca (s : State) : (markDropped s).sca = s.sca := rfl
@[simp] theorem markDropped_scb (s : State) : (markDropped s).scb = s.scb := rfl
@[simp] theorem markDropped_pub (s : State) : (markDropped s).pub = s.pub := rfl
@[simp] theorem markDropped_vbuf (s : State) : (markDropped s).vbuf = s.vbuf := rfl
@[simp] theorem markDropped_pend (s : State) : (markDropped s).pend = s.pend := rfl
@[simp] theorem markDropped_scratch (s : State) : (markDropped s).scratch = s.scratch := rfl
@[simp] theorem markDropped_inputs (s : State) : (markDropped s).inputs = s.inputs := rfl
@[simp] theorem markDropped_rdata (s : State) : (markDropped s).rdata = s.rdata := rfl

/-! ### writeStatus -/

@[simp] theorem writeStatus_lastcmd (s : State) (v : Word) : (writeStatus s v).lastcmd = s.lastcmd := rfl
@[simp] theorem writeStatus_busy (s : State) (v : Word) : (writeStatus s v).busy = s.busy := rfl
@[simp] theorem writeStatus_done (s : State) (v : Word) : (writeStatus s v).done = (s.done && !v.getLsbD 1) := rfl
@[simp] theorem writeStatus_wbusy (s : State) (v : Word) : (writeStatus s v).wbusy = (s.wbusy && !v.getLsbD 2) := rfl
@[simp] theorem writeStatus_err (s : State) (v : Word) : (writeStatus s v).err = s.err := rfl
@[simp] theorem writeStatus_doneIe (s : State) (v : Word) : (writeStatus s v).doneIe = s.doneIe := rfl
@[simp] theorem writeStatus_vlen (s : State) (v : Word) : (writeStatus s v).vlen = s.vlen := rfl
@[simp] theorem writeStatus_publen (s : State) (v : Word) : (writeStatus s v).publen = s.publen := rfl
@[simp] theorem writeStatus_key (s : State) (v : Word) : (writeStatus s v).key = s.key := rfl
@[simp] theorem writeStatus_mask (s : State) (v : Word) : (writeStatus s v).mask = s.mask := rfl
@[simp] theorem writeStatus_din (s : State) (v : Word) : (writeStatus s v).din = s.din := rfl
@[simp] theorem writeStatus_dout (s : State) (v : Word) : (writeStatus s v).dout = s.dout := rfl
@[simp] theorem writeStatus_chk (s : State) (v : Word) : (writeStatus s v).chk = s.chk := rfl
@[simp] theorem writeStatus_osalt (s : State) (v : Word) : (writeStatus s v).osalt = s.osalt := rfl
@[simp] theorem writeStatus_sca (s : State) (v : Word) : (writeStatus s v).sca = s.sca := rfl
@[simp] theorem writeStatus_scb (s : State) (v : Word) : (writeStatus s v).scb = s.scb := rfl
@[simp] theorem writeStatus_pub (s : State) (v : Word) : (writeStatus s v).pub = s.pub := rfl
@[simp] theorem writeStatus_vbuf (s : State) (v : Word) : (writeStatus s v).vbuf = s.vbuf := rfl
@[simp] theorem writeStatus_pend (s : State) (v : Word) : (writeStatus s v).pend = s.pend := rfl
@[simp] theorem writeStatus_scratch (s : State) (v : Word) : (writeStatus s v).scratch = s.scratch := rfl
@[simp] theorem writeStatus_inputs (s : State) (v : Word) : (writeStatus s v).inputs = s.inputs := rfl
@[simp] theorem writeStatus_rdata (s : State) (v : Word) : (writeStatus s v).rdata = s.rdata := rfl

/-! ### writeIrqEn -/

@[simp] theorem writeIrqEn_lastcmd (s : State) (v : Word) : (writeIrqEn s v).lastcmd = s.lastcmd := rfl
@[simp] theorem writeIrqEn_busy (s : State) (v : Word) : (writeIrqEn s v).busy = s.busy := rfl
@[simp] theorem writeIrqEn_done (s : State) (v : Word) : (writeIrqEn s v).done = s.done := rfl
@[simp] theorem writeIrqEn_wbusy (s : State) (v : Word) : (writeIrqEn s v).wbusy = s.wbusy := rfl
@[simp] theorem writeIrqEn_err (s : State) (v : Word) : (writeIrqEn s v).err = s.err := rfl
@[simp] theorem writeIrqEn_doneIe (s : State) (v : Word) : (writeIrqEn s v).doneIe = v.getLsbD 0 := rfl
@[simp] theorem writeIrqEn_vlen (s : State) (v : Word) : (writeIrqEn s v).vlen = s.vlen := rfl
@[simp] theorem writeIrqEn_publen (s : State) (v : Word) : (writeIrqEn s v).publen = s.publen := rfl
@[simp] theorem writeIrqEn_key (s : State) (v : Word) : (writeIrqEn s v).key = s.key := rfl
@[simp] theorem writeIrqEn_mask (s : State) (v : Word) : (writeIrqEn s v).mask = s.mask := rfl
@[simp] theorem writeIrqEn_din (s : State) (v : Word) : (writeIrqEn s v).din = s.din := rfl
@[simp] theorem writeIrqEn_dout (s : State) (v : Word) : (writeIrqEn s v).dout = s.dout := rfl
@[simp] theorem writeIrqEn_chk (s : State) (v : Word) : (writeIrqEn s v).chk = s.chk := rfl
@[simp] theorem writeIrqEn_osalt (s : State) (v : Word) : (writeIrqEn s v).osalt = s.osalt := rfl
@[simp] theorem writeIrqEn_sca (s : State) (v : Word) : (writeIrqEn s v).sca = s.sca := rfl
@[simp] theorem writeIrqEn_scb (s : State) (v : Word) : (writeIrqEn s v).scb = s.scb := rfl
@[simp] theorem writeIrqEn_pub (s : State) (v : Word) : (writeIrqEn s v).pub = s.pub := rfl
@[simp] theorem writeIrqEn_vbuf (s : State) (v : Word) : (writeIrqEn s v).vbuf = s.vbuf := rfl
@[simp] theorem writeIrqEn_pend (s : State) (v : Word) : (writeIrqEn s v).pend = s.pend := rfl
@[simp] theorem writeIrqEn_scratch (s : State) (v : Word) : (writeIrqEn s v).scratch = s.scratch := rfl
@[simp] theorem writeIrqEn_inputs (s : State) (v : Word) : (writeIrqEn s v).inputs = s.inputs := rfl
@[simp] theorem writeIrqEn_rdata (s : State) (v : Word) : (writeIrqEn s v).rdata = s.rdata := rfl

/-! ### accept -/

@[simp] theorem accept_lastcmd (s : State) (w : Word) : (accept s w).lastcmd = s.lastcmd := rfl
@[simp] theorem accept_busy (s : State) (w : Word) : (accept s w).busy = true := rfl
@[simp] theorem accept_done (s : State) (w : Word) : (accept s w).done = s.done := rfl
@[simp] theorem accept_wbusy (s : State) (w : Word) : (accept s w).wbusy = s.wbusy := rfl
@[simp] theorem accept_err (s : State) (w : Word) : (accept s w).err = s.err := rfl
@[simp] theorem accept_doneIe (s : State) (w : Word) : (accept s w).doneIe = s.doneIe := rfl
@[simp] theorem accept_vlen (s : State) (w : Word) : (accept s w).vlen = s.vlen := rfl
@[simp] theorem accept_publen (s : State) (w : Word) : (accept s w).publen = s.publen := rfl
@[simp] theorem accept_key (s : State) (w : Word) : (accept s w).key = s.key := rfl
@[simp] theorem accept_mask (s : State) (w : Word) : (accept s w).mask = s.mask := rfl
@[simp] theorem accept_din (s : State) (w : Word) : (accept s w).din = s.din := rfl
@[simp] theorem accept_dout (s : State) (w : Word) : (accept s w).dout = s.dout := rfl
@[simp] theorem accept_chk (s : State) (w : Word) : (accept s w).chk = s.chk := rfl
@[simp] theorem accept_osalt (s : State) (w : Word) : (accept s w).osalt = s.osalt := rfl
@[simp] theorem accept_sca (s : State) (w : Word) : (accept s w).sca = s.sca := rfl
@[simp] theorem accept_scb (s : State) (w : Word) : (accept s w).scb = s.scb := rfl
@[simp] theorem accept_pub (s : State) (w : Word) : (accept s w).pub = s.pub := rfl
@[simp] theorem accept_vbuf (s : State) (w : Word) : (accept s w).vbuf = s.vbuf := rfl
@[simp] theorem accept_pend (s : State) (w : Word) : (accept s w).pend = w := rfl
@[simp] theorem accept_scratch (s : State) (w : Word) : (accept s w).scratch = s.scratch := rfl
@[simp] theorem accept_inputs (s : State) (w : Word) : (accept s w).inputs = s.inputs := rfl
@[simp] theorem accept_rdata (s : State) (w : Word) : (accept s w).rdata = s.rdata := rfl

/-! ### endIllegal -/

@[simp] theorem endIllegal_lastcmd (s : State) : (endIllegal s).lastcmd = s.lastcmd := rfl
@[simp] theorem endIllegal_busy (s : State) : (endIllegal s).busy = s.busy := rfl
@[simp] theorem endIllegal_done (s : State) : (endIllegal s).done = true := rfl
@[simp] theorem endIllegal_wbusy (s : State) : (endIllegal s).wbusy = s.wbusy := rfl
@[simp] theorem endIllegal_err (s : State) : (endIllegal s).err = .illegal := rfl
@[simp] theorem endIllegal_doneIe (s : State) : (endIllegal s).doneIe = s.doneIe := rfl
@[simp] theorem endIllegal_vlen (s : State) : (endIllegal s).vlen = s.vlen := rfl
@[simp] theorem endIllegal_publen (s : State) : (endIllegal s).publen = s.publen := rfl
@[simp] theorem endIllegal_key (s : State) : (endIllegal s).key = s.key := rfl
@[simp] theorem endIllegal_mask (s : State) : (endIllegal s).mask = s.mask := rfl
@[simp] theorem endIllegal_din (s : State) : (endIllegal s).din = s.din := rfl
@[simp] theorem endIllegal_dout (s : State) : (endIllegal s).dout = s.dout := rfl
@[simp] theorem endIllegal_chk (s : State) : (endIllegal s).chk = s.chk := rfl
@[simp] theorem endIllegal_osalt (s : State) : (endIllegal s).osalt = s.osalt := rfl
@[simp] theorem endIllegal_sca (s : State) : (endIllegal s).sca = s.sca := rfl
@[simp] theorem endIllegal_scb (s : State) : (endIllegal s).scb = s.scb := rfl
@[simp] theorem endIllegal_pub (s : State) : (endIllegal s).pub = s.pub := rfl
@[simp] theorem endIllegal_vbuf (s : State) : (endIllegal s).vbuf = s.vbuf := rfl
@[simp] theorem endIllegal_pend (s : State) : (endIllegal s).pend = s.pend := rfl
@[simp] theorem endIllegal_scratch (s : State) : (endIllegal s).scratch = s.scratch := rfl
@[simp] theorem endIllegal_inputs (s : State) : (endIllegal s).inputs = s.inputs := rfl
@[simp] theorem endIllegal_rdata (s : State) : (endIllegal s).rdata = s.rdata := rfl

/-! ### writeDout -/

@[simp] theorem writeDout_lastcmd (s : State) (l : List Byte) : (writeDout s l).lastcmd = s.lastcmd := rfl
@[simp] theorem writeDout_busy (s : State) (l : List Byte) : (writeDout s l).busy = s.busy := rfl
@[simp] theorem writeDout_done (s : State) (l : List Byte) : (writeDout s l).done = s.done := rfl
@[simp] theorem writeDout_wbusy (s : State) (l : List Byte) : (writeDout s l).wbusy = s.wbusy := rfl
@[simp] theorem writeDout_err (s : State) (l : List Byte) : (writeDout s l).err = s.err := rfl
@[simp] theorem writeDout_doneIe (s : State) (l : List Byte) : (writeDout s l).doneIe = s.doneIe := rfl
@[simp] theorem writeDout_vlen (s : State) (l : List Byte) : (writeDout s l).vlen = s.vlen := rfl
@[simp] theorem writeDout_publen (s : State) (l : List Byte) : (writeDout s l).publen = s.publen := rfl
@[simp] theorem writeDout_key (s : State) (l : List Byte) : (writeDout s l).key = s.key := rfl
@[simp] theorem writeDout_mask (s : State) (l : List Byte) : (writeDout s l).mask = s.mask := rfl
@[simp] theorem writeDout_din (s : State) (l : List Byte) : (writeDout s l).din = s.din := rfl
@[simp] theorem writeDout_dout (s : State) (l : List Byte) : (writeDout s l).dout = overwrite s.dout l := rfl
@[simp] theorem writeDout_chk (s : State) (l : List Byte) : (writeDout s l).chk = s.chk := rfl
@[simp] theorem writeDout_osalt (s : State) (l : List Byte) : (writeDout s l).osalt = s.osalt := rfl
@[simp] theorem writeDout_sca (s : State) (l : List Byte) : (writeDout s l).sca = s.sca := rfl
@[simp] theorem writeDout_scb (s : State) (l : List Byte) : (writeDout s l).scb = s.scb := rfl
@[simp] theorem writeDout_pub (s : State) (l : List Byte) : (writeDout s l).pub = s.pub := rfl
@[simp] theorem writeDout_vbuf (s : State) (l : List Byte) : (writeDout s l).vbuf = s.vbuf := rfl
@[simp] theorem writeDout_pend (s : State) (l : List Byte) : (writeDout s l).pend = s.pend := rfl
@[simp] theorem writeDout_scratch (s : State) (l : List Byte) : (writeDout s l).scratch = s.scratch := rfl
@[simp] theorem writeDout_inputs (s : State) (l : List Byte) : (writeDout s l).inputs = s.inputs := rfl
@[simp] theorem writeDout_rdata (s : State) (l : List Byte) : (writeDout s l).rdata = s.rdata := rfl

/-! ### writeMaskKey -/

@[simp] theorem writeMaskKey_lastcmd (s : State) (dk : List Byte) : (writeMaskKey s dk).lastcmd = s.lastcmd := rfl
@[simp] theorem writeMaskKey_busy (s : State) (dk : List Byte) : (writeMaskKey s dk).busy = s.busy := rfl
@[simp] theorem writeMaskKey_done (s : State) (dk : List Byte) : (writeMaskKey s dk).done = s.done := rfl
@[simp] theorem writeMaskKey_wbusy (s : State) (dk : List Byte) : (writeMaskKey s dk).wbusy = s.wbusy := rfl
@[simp] theorem writeMaskKey_err (s : State) (dk : List Byte) : (writeMaskKey s dk).err = s.err := rfl
@[simp] theorem writeMaskKey_doneIe (s : State) (dk : List Byte) : (writeMaskKey s dk).doneIe = s.doneIe := rfl
@[simp] theorem writeMaskKey_vlen (s : State) (dk : List Byte) : (writeMaskKey s dk).vlen = s.vlen := rfl
@[simp] theorem writeMaskKey_publen (s : State) (dk : List Byte) : (writeMaskKey s dk).publen = s.publen := rfl
@[simp] theorem writeMaskKey_key (s : State) (dk : List Byte) : (writeMaskKey s dk).key = bytesOf 32 (slice dk 32 64) := rfl
@[simp] theorem writeMaskKey_mask (s : State) (dk : List Byte) : (writeMaskKey s dk).mask = bytesOf 32 (slice dk 0 32) := rfl
@[simp] theorem writeMaskKey_din (s : State) (dk : List Byte) : (writeMaskKey s dk).din = s.din := rfl
@[simp] theorem writeMaskKey_dout (s : State) (dk : List Byte) : (writeMaskKey s dk).dout = s.dout := rfl
@[simp] theorem writeMaskKey_chk (s : State) (dk : List Byte) : (writeMaskKey s dk).chk = s.chk := rfl
@[simp] theorem writeMaskKey_osalt (s : State) (dk : List Byte) : (writeMaskKey s dk).osalt = s.osalt := rfl
@[simp] theorem writeMaskKey_sca (s : State) (dk : List Byte) : (writeMaskKey s dk).sca = s.sca := rfl
@[simp] theorem writeMaskKey_scb (s : State) (dk : List Byte) : (writeMaskKey s dk).scb = s.scb := rfl
@[simp] theorem writeMaskKey_pub (s : State) (dk : List Byte) : (writeMaskKey s dk).pub = s.pub := rfl
@[simp] theorem writeMaskKey_vbuf (s : State) (dk : List Byte) : (writeMaskKey s dk).vbuf = s.vbuf := rfl
@[simp] theorem writeMaskKey_pend (s : State) (dk : List Byte) : (writeMaskKey s dk).pend = s.pend := rfl
@[simp] theorem writeMaskKey_scratch (s : State) (dk : List Byte) : (writeMaskKey s dk).scratch = s.scratch := rfl
@[simp] theorem writeMaskKey_inputs (s : State) (dk : List Byte) : (writeMaskKey s dk).inputs = s.inputs := rfl
@[simp] theorem writeMaskKey_rdata (s : State) (dk : List Byte) : (writeMaskKey s dk).rdata = s.rdata := rfl

/-! ### clearBuffers -/

@[simp] theorem clearBuffers_lastcmd (s : State) : (clearBuffers s).lastcmd = s.lastcmd := rfl
@[simp] theorem clearBuffers_busy (s : State) : (clearBuffers s).busy = s.busy := rfl
@[simp] theorem clearBuffers_done (s : State) : (clearBuffers s).done = s.done := rfl
@[simp] theorem clearBuffers_wbusy (s : State) : (clearBuffers s).wbusy = s.wbusy := rfl
@[simp] theorem clearBuffers_err (s : State) : (clearBuffers s).err = s.err := rfl
@[simp] theorem clearBuffers_doneIe (s : State) : (clearBuffers s).doneIe = s.doneIe := rfl
@[simp] theorem clearBuffers_vlen (s : State) : (clearBuffers s).vlen = 0#9 := rfl
@[simp] theorem clearBuffers_publen (s : State) : (clearBuffers s).publen = 0#7 := rfl
@[simp] theorem clearBuffers_key (s : State) : (clearBuffers s).key = Bytes.zero 32 := rfl
@[simp] theorem clearBuffers_mask (s : State) : (clearBuffers s).mask = Bytes.zero 32 := rfl
@[simp] theorem clearBuffers_din (s : State) : (clearBuffers s).din = Bytes.zero 32 := rfl
@[simp] theorem clearBuffers_dout (s : State) : (clearBuffers s).dout = Bytes.zero 32 := rfl
@[simp] theorem clearBuffers_chk (s : State) : (clearBuffers s).chk = Bytes.zero 4 := rfl
@[simp] theorem clearBuffers_osalt (s : State) : (clearBuffers s).osalt = Bytes.zero 8 := rfl
@[simp] theorem clearBuffers_sca (s : State) : (clearBuffers s).sca = Bytes.zero 32 := rfl
@[simp] theorem clearBuffers_scb (s : State) : (clearBuffers s).scb = Bytes.zero 32 := rfl
@[simp] theorem clearBuffers_pub (s : State) : (clearBuffers s).pub = Bytes.zero 65 := rfl
@[simp] theorem clearBuffers_vbuf (s : State) : (clearBuffers s).vbuf = Bytes.zero 256 := rfl
@[simp] theorem clearBuffers_pend (s : State) : (clearBuffers s).pend = s.pend := rfl
@[simp] theorem clearBuffers_scratch (s : State) : (clearBuffers s).scratch = s.scratch := rfl
@[simp] theorem clearBuffers_inputs (s : State) : (clearBuffers s).inputs = s.inputs := rfl
@[simp] theorem clearBuffers_rdata (s : State) : (clearBuffers s).rdata = s.rdata := rfl

/-! ### resetGkb -/

@[simp] theorem resetGkb_lastcmd (s : State) : (resetGkb s).lastcmd = State.reset.lastcmd := rfl
@[simp] theorem resetGkb_busy (s : State) : (resetGkb s).busy = State.reset.busy := rfl
@[simp] theorem resetGkb_done (s : State) : (resetGkb s).done = State.reset.done := rfl
@[simp] theorem resetGkb_wbusy (s : State) : (resetGkb s).wbusy = State.reset.wbusy := rfl
@[simp] theorem resetGkb_err (s : State) : (resetGkb s).err = State.reset.err := rfl
@[simp] theorem resetGkb_doneIe (s : State) : (resetGkb s).doneIe = State.reset.doneIe := rfl
@[simp] theorem resetGkb_vlen (s : State) : (resetGkb s).vlen = State.reset.vlen := rfl
@[simp] theorem resetGkb_publen (s : State) : (resetGkb s).publen = State.reset.publen := rfl
@[simp] theorem resetGkb_key (s : State) : (resetGkb s).key = State.reset.key := rfl
@[simp] theorem resetGkb_mask (s : State) : (resetGkb s).mask = State.reset.mask := rfl
@[simp] theorem resetGkb_din (s : State) : (resetGkb s).din = State.reset.din := rfl
@[simp] theorem resetGkb_dout (s : State) : (resetGkb s).dout = State.reset.dout := rfl
@[simp] theorem resetGkb_chk (s : State) : (resetGkb s).chk = State.reset.chk := rfl
@[simp] theorem resetGkb_osalt (s : State) : (resetGkb s).osalt = State.reset.osalt := rfl
@[simp] theorem resetGkb_sca (s : State) : (resetGkb s).sca = State.reset.sca := rfl
@[simp] theorem resetGkb_scb (s : State) : (resetGkb s).scb = State.reset.scb := rfl
@[simp] theorem resetGkb_pub (s : State) : (resetGkb s).pub = State.reset.pub := rfl
@[simp] theorem resetGkb_vbuf (s : State) : (resetGkb s).vbuf = State.reset.vbuf := rfl
@[simp] theorem resetGkb_pend (s : State) : (resetGkb s).pend = State.reset.pend := rfl
@[simp] theorem resetGkb_scratch (s : State) : (resetGkb s).scratch = State.reset.scratch := rfl
@[simp] theorem resetGkb_inputs (s : State) : (resetGkb s).inputs = s.inputs := rfl
@[simp] theorem resetGkb_rdata (s : State) : (resetGkb s).rdata = s.rdata := rfl

/-! ### withPending -/

@[simp] theorem withPending_lastcmd (s : State) (w : Word) : (withPending s w).lastcmd = s.lastcmd := rfl
@[simp] theorem withPending_busy (s : State) (w : Word) : (withPending s w).busy = true := rfl
@[simp] theorem withPending_done (s : State) (w : Word) : (withPending s w).done = s.done := rfl
@[simp] theorem withPending_wbusy (s : State) (w : Word) : (withPending s w).wbusy = s.wbusy := rfl
@[simp] theorem withPending_err (s : State) (w : Word) : (withPending s w).err = s.err := rfl
@[simp] theorem withPending_doneIe (s : State) (w : Word) : (withPending s w).doneIe = s.doneIe := rfl
@[simp] theorem withPending_vlen (s : State) (w : Word) : (withPending s w).vlen = s.vlen := rfl
@[simp] theorem withPending_publen (s : State) (w : Word) : (withPending s w).publen = s.publen := rfl
@[simp] theorem withPending_key (s : State) (w : Word) : (withPending s w).key = s.key := rfl
@[simp] theorem withPending_mask (s : State) (w : Word) : (withPending s w).mask = s.mask := rfl
@[simp] theorem withPending_din (s : State) (w : Word) : (withPending s w).din = s.din := rfl
@[simp] theorem withPending_dout (s : State) (w : Word) : (withPending s w).dout = s.dout := rfl
@[simp] theorem withPending_chk (s : State) (w : Word) : (withPending s w).chk = s.chk := rfl
@[simp] theorem withPending_osalt (s : State) (w : Word) : (withPending s w).osalt = s.osalt := rfl
@[simp] theorem withPending_sca (s : State) (w : Word) : (withPending s w).sca = s.sca := rfl
@[simp] theorem withPending_scb (s : State) (w : Word) : (withPending s w).scb = s.scb := rfl
@[simp] theorem withPending_pub (s : State) (w : Word) : (withPending s w).pub = s.pub := rfl
@[simp] theorem withPending_vbuf (s : State) (w : Word) : (withPending s w).vbuf = s.vbuf := rfl
@[simp] theorem withPending_pend (s : State) (w : Word) : (withPending s w).pend = w := rfl
@[simp] theorem withPending_scratch (s : State) (w : Word) : (withPending s w).scratch = s.scratch := rfl
@[simp] theorem withPending_inputs (s : State) (w : Word) : (withPending s w).inputs = (if s.inputs.isEmpty then [] else .engine :: s.inputs) := rfl
@[simp] theorem withPending_rdata (s : State) (w : Word) : (withPending s w).rdata = s.rdata := rfl

/-! ### Bytes of a buffer written one at a time (R86) -/

@[simp] theorem writeBufferByte_lastcmd (s : State) (b : Buffer) (i : Nat) (v : Byte) :
    (writeBufferByte s b i v).lastcmd = s.lastcmd := by cases b <;> rfl
@[simp] theorem writeBufferByte_busy (s : State) (b : Buffer) (i : Nat) (v : Byte) :
    (writeBufferByte s b i v).busy = s.busy := by cases b <;> rfl
@[simp] theorem writeBufferByte_done (s : State) (b : Buffer) (i : Nat) (v : Byte) :
    (writeBufferByte s b i v).done = s.done := by cases b <;> rfl
@[simp] theorem writeBufferByte_wbusy (s : State) (b : Buffer) (i : Nat) (v : Byte) :
    (writeBufferByte s b i v).wbusy = s.wbusy := by cases b <;> rfl
@[simp] theorem writeBufferByte_err (s : State) (b : Buffer) (i : Nat) (v : Byte) :
    (writeBufferByte s b i v).err = s.err := by cases b <;> rfl
@[simp] theorem writeBufferByte_doneIe (s : State) (b : Buffer) (i : Nat) (v : Byte) :
    (writeBufferByte s b i v).doneIe = s.doneIe := by cases b <;> rfl
@[simp] theorem writeBufferByte_vlen (s : State) (b : Buffer) (i : Nat) (v : Byte) :
    (writeBufferByte s b i v).vlen = s.vlen := by cases b <;> rfl
@[simp] theorem writeBufferByte_publen (s : State) (b : Buffer) (i : Nat) (v : Byte) :
    (writeBufferByte s b i v).publen = s.publen := by cases b <;> rfl
@[simp] theorem writeBufferByte_pend (s : State) (b : Buffer) (i : Nat) (v : Byte) :
    (writeBufferByte s b i v).pend = s.pend := by cases b <;> rfl
@[simp] theorem writeBufferByte_scratch (s : State) (b : Buffer) (i : Nat) (v : Byte) :
    (writeBufferByte s b i v).scratch = s.scratch := by cases b <;> rfl
@[simp] theorem writeBufferByte_inputs (s : State) (b : Buffer) (i : Nat) (v : Byte) :
    (writeBufferByte s b i v).inputs = s.inputs := by cases b <;> rfl
@[simp] theorem writeBufferByte_rdata (s : State) (b : Buffer) (i : Nat) (v : Byte) :
    (writeBufferByte s b i v).rdata = s.rdata := by cases b <;> rfl
@[simp] theorem writeBufferWord_lastcmd (s : State) (b : Buffer) (o : Nat) (v : Word) :
    (writeBufferWord s b o v).lastcmd = s.lastcmd := by simp [writeBufferWord]
@[simp] theorem writeBufferWord_busy (s : State) (b : Buffer) (o : Nat) (v : Word) :
    (writeBufferWord s b o v).busy = s.busy := by simp [writeBufferWord]
@[simp] theorem writeBufferWord_done (s : State) (b : Buffer) (o : Nat) (v : Word) :
    (writeBufferWord s b o v).done = s.done := by simp [writeBufferWord]
@[simp] theorem writeBufferWord_wbusy (s : State) (b : Buffer) (o : Nat) (v : Word) :
    (writeBufferWord s b o v).wbusy = s.wbusy := by simp [writeBufferWord]
@[simp] theorem writeBufferWord_err (s : State) (b : Buffer) (o : Nat) (v : Word) :
    (writeBufferWord s b o v).err = s.err := by simp [writeBufferWord]
@[simp] theorem writeBufferWord_doneIe (s : State) (b : Buffer) (o : Nat) (v : Word) :
    (writeBufferWord s b o v).doneIe = s.doneIe := by simp [writeBufferWord]
@[simp] theorem writeBufferWord_vlen (s : State) (b : Buffer) (o : Nat) (v : Word) :
    (writeBufferWord s b o v).vlen = s.vlen := by simp [writeBufferWord]
@[simp] theorem writeBufferWord_publen (s : State) (b : Buffer) (o : Nat) (v : Word) :
    (writeBufferWord s b o v).publen = s.publen := by simp [writeBufferWord]
@[simp] theorem writeBufferWord_pend (s : State) (b : Buffer) (o : Nat) (v : Word) :
    (writeBufferWord s b o v).pend = s.pend := by simp [writeBufferWord]
@[simp] theorem writeBufferWord_scratch (s : State) (b : Buffer) (o : Nat) (v : Word) :
    (writeBufferWord s b o v).scratch = s.scratch := by simp [writeBufferWord]
@[simp] theorem writeBufferWord_inputs (s : State) (b : Buffer) (o : Nat) (v : Word) :
    (writeBufferWord s b o v).inputs = s.inputs := by simp [writeBufferWord]
@[simp] theorem writeBufferWord_rdata (s : State) (b : Buffer) (o : Nat) (v : Word) :
    (writeBufferWord s b o v).rdata = s.rdata := by simp [writeBufferWord]

end Sys2Proof.Machine
end

