-- ==== Sys2Proof/Laws/Ops.lean ====
section
/-! SUPPORT. What each shared operation can do, once: the ends of a command, the issue, the bus accesses,
the events. Later proofs cite these and unfold no operation. -/

namespace Sys2Proof.Machine

/-! ### The end of a command -/

@[simp] theorem complete_eq (s : State) : complete s = .next (endCommand .none s) := rfl

@[simp] theorem raiseErr_eq (c : ErrCode) (s : State) : raiseErr c s = .next (endCommand c s) := rfl

/-- Ending a command twice is ending it with the later code. -/
@[simp] theorem endCommand_endCommand (c d : ErrCode) (s : State) :
    endCommand c (endCommand d s) = endCommand c s := rfl

theorem withVbuf_eq_next {s : State} {f : List Byte → State} (h : s.vlen.toNat ≤ 256) :
    withVbuf s f = .next (endCommand .none (f (vbufBytes s))) := by
  simp [withVbuf, vlenInRange, h]

theorem withVbuf_eq_length {s : State} {f : List Byte → State} (h : 256 < s.vlen.toNat) :
    withVbuf s f = .next (endCommand .length s) := by
  simp [withVbuf, vlenInRange, Nat.not_le.mpr h]

/-- All a command over VBUF can do (R433). -/
theorem withVbuf_cases {s t : State} {f : List Byte → State} (h : withVbuf s f = .next t) :
    (s.vlen.toNat ≤ 256 ∧ t = endCommand .none (f (vbufBytes s))) ∨
      (256 < s.vlen.toNat ∧ t = endCommand .length s) := by
  rcases Nat.lt_or_ge 256 s.vlen.toNat with hv | hv
  · rw [withVbuf_eq_length hv] at h; cases h; exact .inr ⟨hv, rfl⟩
  · rw [withVbuf_eq_next hv] at h; cases h; exact .inl ⟨hv, rfl⟩

theorem scalarInRange_iff (k : Nat) : scalarInRange k = true ↔ 1 ≤ k ∧ k < curveN := by
  simp [scalarInRange]

/-- All EC_BASEMUL can do (R330, R434). -/
theorem ecBasemul_cases {ser : Point → List Byte} {len : BitVec 7} {s t : State}
    (h : ecBasemul ser len s = .next t) :
    (scalarInRange (scaNat s) = true ∧
      t = endCommand .none
        { s with pub := bytesOf 65 (ser (baseMul (scaNat s))), publen := len }) ∨
      (scalarInRange (scaNat s) = false ∧ t = endCommand .scalar s) := by
  unfold ecBasemul at h
  split at h
  · rename_i hk; cases h; exact .inl ⟨hk, rfl⟩
  · rename_i hk; cases h; exact .inr ⟨by simpa using hk, rfl⟩

/-- All SCRYPT_C can do (R222). -/
theorem execScryptC_cases {s t : State} (h : execScryptC s = .next t) :
    (s.publen.toNat = 33 ∧
      t = endCommand .none (writeMaskKey s (kdfStageC (passpointBytes s) (stageCSalt s)))) ∨
      (s.publen.toNat ≠ 33 ∧ t = endCommand .length s) := by
  unfold execScryptC publenCompressed at h
  split at h
  · rename_i hp; cases h; exact .inl ⟨by simpa using hp, rfl⟩
  · rename_i hp; cases h; exact .inr ⟨by simpa using hp, rfl⟩

/-- Everything but the buffers and the lengths is the same in two states. -/
structure KeepsControl (s t : State) : Prop where
  lastcmd : t.lastcmd = s.lastcmd
  wbusy : t.wbusy = s.wbusy
  doneIe : t.doneIe = s.doneIe
  pend : t.pend = s.pend
  inputs : t.inputs = s.inputs
  rdata : t.rdata = s.rdata

theorem KeepsControl.refl (s : State) : KeepsControl s s := ⟨rfl, rfl, rfl, rfl, rfl, rfl⟩

/-- How a command's completion can end: with code NONE after writing buffers and lengths, or with LENGTH
or SCALAR and none of them written, each code only where its commands raise it (R430, R436). -/
def Endings (i : Instr) (s t : State) : Prop :=
  (∃ u, KeepsControl s u ∧ t = endCommand .none u) ∨
    (i ∈ lengthCommands ∧ t = endCommand .length s) ∨
    (i ∈ scalarCommands ∧ t = endCommand .scalar s)

theorem endings_withVbuf {i : Instr} {s t : State} {f : List Byte → State}
    (h : withVbuf s f = .next t) (hf : ∀ m, KeepsControl s (f m)) (hi : i ∈ lengthCommands) :
    Endings i s t :=
  (withVbuf_cases h).elim (fun e => .inl ⟨_, hf _, e.2⟩) fun e => .inr (.inl ⟨hi, e.2⟩)

theorem endings_complete {i : Instr} {s t u : State} (h : complete u = .next t)
    (hu : KeepsControl s u) : Endings i s t := by
  cases h; exact .inl ⟨u, hu, rfl⟩

theorem endings_ecBasemul {i : Instr} {s t : State} {ser : Point → List Byte} {len : BitVec 7}
    (h : ecBasemul ser len s = .next t) (hi : i ∈ scalarCommands) : Endings i s t := by
  rcases ecBasemul_cases h with ⟨-, e⟩ | ⟨-, e⟩
  · refine .inl ⟨_, ?_, e⟩
    exact ⟨rfl, rfl, rfl, rfl, rfl, rfl⟩
  · exact .inr (.inr ⟨hi, e⟩)

theorem endings_execScryptC {s t : State} (h : execScryptC s = .next t) :
    Endings .scryptC s t := by
  rcases execScryptC_cases h with ⟨-, e⟩ | ⟨-, e⟩
  · refine .inl ⟨_, ?_, e⟩
    exact ⟨rfl, rfl, rfl, rfl, rfl, rfl⟩
  · exact .inr (.inl ⟨by decide, e⟩)

/-- All a command's completion can do where it answers a next state. -/
theorem exec_endings {i : Instr} {s t : State} (h : exec i s = .next t) : Endings i s t := by
  cases i with
  | sha256 | sha256d | checksum | scryptA | scryptB =>
    simp only [exec, execSha256, execSha256d, execChecksum, execScryptA, execScryptB] at h
    refine endings_withVbuf h (fun _ => ?_) (by decide)
    exact ⟨rfl, rfl, rfl, rfl, rfl, rfl⟩
  | scryptC => exact endings_execScryptC h
  | aesEnc | aesDec | encMasked32 | decMasked32 | decMasked24 | modmul | factorb | zeroize =>
    refine endings_complete h ?_
    exact ⟨rfl, rfl, rfl, rfl, rfl, rfl⟩
  | ecBasemulU | ecBasemulC => exact endings_ecBasemul h (by decide)

/-! ### Issue (R380, R382) -/

theorem issue_eq_accept {s : State} {w : Word} {i : Instr} (h : decode w = some i) :
    issue s w = accept { s with lastcmd := w, done := false, err := .none } w := by
  simp [issue, h]

theorem issue_eq_illegal {s : State} {w : Word} (h : decode w = none) :
    issue s w = endIllegal { s with lastcmd := w, done := false, err := .none } := by
  simp [issue, h]

/-! ### Host writes (R86, R96) -/

/-- All a host write can do. -/
theorem memWrite_cases (s : State) (off : BitVec 12) (v : Word) :
    memWrite s off v = writeStatus s v ∨ memWrite s off v = writeIrqEn s v ∨
      (s.busy = true ∧ memWrite s off v = markDropped s) ∨
      (s.busy = false ∧
        (memWrite s off v = issue s v ∨ memWrite s off v = { s with vlen := v.extractLsb' 0 9 } ∨
          memWrite s off v = { s with publen := v.extractLsb' 0 7 } ∨
          (∃ b, bufferAt (alignOffset off) = some b ∧
            memWrite s off v = writeBufferWord s b (alignOffset off) v) ∨
          memWrite s off v = s)) := by
  unfold memWrite
  simp only
  split_ifs with h1 h2 h3 h4 h5 h6
  · exact .inl rfl
  · exact .inr (.inl rfl)
  · exact .inr (.inr (.inl ⟨h3, rfl⟩))
  · exact .inr (.inr (.inr ⟨by simpa using h3, .inl rfl⟩))
  · exact .inr (.inr (.inr ⟨by simpa using h3, .inr (.inl rfl)⟩))
  · exact .inr (.inr (.inr ⟨by simpa using h3, .inr (.inr (.inl rfl))⟩))
  · refine .inr (.inr (.inr ⟨by simpa using h3, .inr (.inr (.inr ?_))⟩))
    cases hb : bufferAt (alignOffset off) with
    | none => exact .inr rfl
    | some b => exact .inl ⟨b, rfl, rfl⟩

/-! ### Events (R9, R473) -/

@[simp] theorem react_read (off : BitVec 12) (s : State) :
    react (.read off) s = .next { s with rdata := memRead s off } := rfl

@[simp] theorem react_write (off : BitVec 12) (v : Word) (s : State) :
    react (.write off v) s = .next (memWrite s off v) := rfl

@[simp] theorem react_engine (s : State) : react .engine s = engineTurn s := rfl

@[simp] theorem react_reset (s : State) : react .reset s = .next (resetGkb s) := rfl

theorem engineTurn_idle {s : State} (h : s.busy = false) : engineTurn s = .next s := by
  simp [engineTurn, h]

theorem engineTurn_busy {s : State} {i : Instr} (h : s.busy = true) (hd : decode s.pend = some i) :
    engineTurn s = exec i s := by
  simp [engineTurn, completionStep, h, hd]

/-- All the engine's turn can do where it answers a next state (R383). -/
theorem engineTurn_cases {s t : State} (h : engineTurn s = .next t) :
    (s.busy = false ∧ t = s) ∨
      (s.busy = true ∧ ∃ i, decode s.pend = some i ∧ exec i s = .next t) := by
  unfold engineTurn completionStep at h
  split at h
  · rename_i hb
    split at h
    · rename_i i hi; exact .inr ⟨hb, i, hi, h⟩
    · cases h
  · rename_i hb; cases h; exact .inl ⟨by simpa using hb, rfl⟩

theorem step_nil {s : State} (h : s.inputs = []) : step s = engineTurn s := by
  simp [step, nextEvent, h]

theorem step_cons {s : State} {e : Input} {rest : List Input} (h : s.inputs = e :: rest) :
    step s = react e { s with inputs := rest } := by
  simp [step, nextEvent, h]

end Sys2Proof.Machine
end

