-- ==== Sys2Proof/Laws/Host.lean ====
section
/-! SUPPORT. What the host layer's shared operations can do, once: holding and clearing the host's own
copies, the exits of a sequence, one command run to its end; and the lengths of the host's hash (R404,
R412, log 20, log 21). -/

namespace Sys2Proof.Machine

/-! ### The host's own copies and the exits (R412) -/

@[simp] theorem holdPassphrase_gkb (p : List Byte) (y : Session) : (holdPassphrase p y).gkb = y.gkb := rfl

@[simp] theorem holdPassphrase_passphrase (p : List Byte) (y : Session) :
    (holdPassphrase p y).copies.passphrase = some p := rfl

@[simp] theorem holdPassphrase_mask (p : List Byte) (y : Session) :
    (holdPassphrase p y).copies.mask = y.copies.mask := rfl

@[simp] theorem holdPassphrase_key (p : List Byte) (y : Session) :
    (holdPassphrase p y).copies.key = y.copies.key := rfl

@[simp] theorem holdPassphrase_privateKey (p : List Byte) (y : Session) :
    (holdPassphrase p y).copies.privateKey = y.copies.privateKey := rfl

@[simp] theorem holdPrivateKey_gkb (k : List Byte) (y : Session) : (holdPrivateKey k y).gkb = y.gkb := rfl

@[simp] theorem holdPrivateKey_passphrase (k : List Byte) (y : Session) :
    (holdPrivateKey k y).copies.passphrase = y.copies.passphrase := rfl

@[simp] theorem holdPrivateKey_mask (k : List Byte) (y : Session) :
    (holdPrivateKey k y).copies.mask = y.copies.mask := rfl

@[simp] theorem holdPrivateKey_key (k : List Byte) (y : Session) :
    (holdPrivateKey k y).copies.key = y.copies.key := rfl

@[simp] theorem holdPrivateKey_privateKey (k : List Byte) (y : Session) :
    (holdPrivateKey k y).copies.privateKey = some k := rfl

@[simp] theorem leave_eq {α : Type} (o : Except HostError α) (y : Session) :
    leave o y = ({ gkb := y.gkb, copies := noCopies }, o) := rfl

@[simp] theorem zeroizeAndLeave_eq {α : Type} (o : Except HostError α) (y : Session) :
    zeroizeAndLeave o y = ({ gkb := runCommand .zeroize y.gkb, copies := noCopies }, o) := rfl

@[simp] theorem failWith_eq {α : Type} (e : HostError) (y : Session) :
    failWith (α := α) e y =
      ({ gkb := runCommand .zeroize y.gkb, copies := noCopies }, .error e) := rfl

/-! ### One command run to its end (R141, R143) -/

theorem waitDone_eq {s t : State} (h : engineTurn s = .next t) : waitDone s = t := by
  simp [waitDone, h]

/-- Issued to an idle GKB, a command whose word decodes to it runs to its completion. -/
theorem runCommand_eq {i : Instr} {s t : State} (hb : s.busy = false)
    (hd : decode (encode i) = some i)
    (h : exec i (accept { s with lastcmd := encode i, done := false, err := .none } (encode i)) =
      .next t) : runCommand i s = t := by
  have ho : alignOffset 0x004 = 4 := by decide
  have hw : memWrite s 0x004 (encode i) = issue s (encode i) := by
    simp only [memWrite, ho, hb]; rfl
  rw [runCommand, hw, issue_eq_accept hd]
  exact waitDone_eq ((engineTurn_busy (accept_busy ..) (by rw [accept_pend]; exact hd)).trans h)

/-! ### The host's hash (R404) -/

@[simp] theorem length_ripemd160 (m : List Byte) : (ripemd160 m).length = 20 := rfl

@[simp] theorem length_keyHash (pub : List Byte) : (keyHash pub).length = 20 := rfl

end Sys2Proof.Machine
end

