-- ==== Sys2Proof/Laws/PerInstr.lean ====
section
/-! SUPPORT. A statement about every instruction, one lemma per constructor: its command word decodes to
it (R128, R129). -/

/-- The instruction is well formed and its command word decodes to it. -/
def Sys2Proof.Laws.RoundTrip.Statement (i : Sys2Proof.Instr) : Prop :=
  i.wellFormed = true ∧ Sys2Proof.decode (Sys2Proof.encode i) = some i

namespace Sys2Proof.Laws.RoundTrip

theorem sha256 : Statement .sha256 := ⟨rfl, by decide⟩
theorem sha256d : Statement .sha256d := ⟨rfl, by decide⟩
theorem checksum : Statement .checksum := ⟨rfl, by decide⟩
theorem scryptA : Statement .scryptA := ⟨rfl, by decide⟩
theorem scryptB : Statement .scryptB := ⟨rfl, by decide⟩
theorem scryptC : Statement .scryptC := ⟨rfl, by decide⟩
theorem aesEnc : Statement .aesEnc := ⟨rfl, by decide⟩
theorem aesDec : Statement .aesDec := ⟨rfl, by decide⟩
theorem encMasked32 : Statement .encMasked32 := ⟨rfl, by decide⟩
theorem decMasked32 : Statement .decMasked32 := ⟨rfl, by decide⟩
theorem decMasked24 : Statement .decMasked24 := ⟨rfl, by decide⟩
theorem ecBasemulU : Statement .ecBasemulU := ⟨rfl, by decide⟩
theorem ecBasemulC : Statement .ecBasemulC := ⟨rfl, by decide⟩
theorem modmul : Statement .modmul := ⟨rfl, by decide⟩
theorem factorb : Statement .factorb := ⟨rfl, by decide⟩
theorem zeroize : Statement .zeroize := ⟨rfl, by decide⟩

end Sys2Proof.Laws.RoundTrip
end

