-- ==== Sys2Proof/Tests/Slice0.lean ====
section
/-! SUPPORT. Tests: command words and vectors of spec/95_test_vectors.md (cited by section), the checks of
the encoding on ill-formed words, and for every statement with hypotheses a concrete case that meets
them, each clause at a boundary. -/

namespace Sys2Proof.Tests

-- One test at a time: many kernel evaluations at once pass the check's memory limit.
set_option Elab.async false

open Sys2Proof Sys2Proof.Machine

/-! ### Helpers -/

/-- What a field holds after a result; none where the result is no next state. -/
def after {α : Type} (r : Result) (f : State → α) : Option α :=
  match r with
  | .next s => some (f s)
  | .fault _ => none
  | .refused _ => none

/-- The n-byte buffer whose bytes, read as one big-endian number, are the numeral. -/
def buf (n x : Nat) : Bytes n := bytesOf n (natBe n x)

/-- The n-byte buffer with a value in every byte. -/
def fill (n : Nat) (v : Byte) : Bytes n := bytesOf n (List.replicate n v)

/-- Reset with a message in VBUF and its length in VLEN. -/
def withMessage (m : String) (n : Nat) : State :=
  { State.reset with vbuf := bytesOf 256 (ascii m.toList), vlen := BitVec.ofNat 9 n }

/-- Idle, every buffer and length non-zero, IRQ enabled, WBUSY set, a byte of SCRATCH listed. -/
def dirty : State :=
  { State.reset with
    done := true, wbusy := true, err := .scalar, doneIe := true, lastcmd := 0x40, vlen := 5, publen := 33,
    key := fill 32 0xFF, mask := fill 32 0xFF, din := fill 32 0xFF, dout := fill 32 0xFF,
    chk := fill 4 0xFF, osalt := fill 8 0xFF, sca := fill 32 0xFF, scb := fill 32 0xFF,
    pub := fill 65 0xFF, vbuf := fill 256 0xFF, rdata := 7, scratch := [(5, 1#8)] }

/-- SHA256 of "abc" accepted and running. -/
def running : State := { withMessage "abc" 3 with lastcmd := 0x10, pend := 0x10, busy := true }

/-! ### Decoding: words written out from R128 (95_test_vectors.md 2.5) -/

theorem test_decode_hash : decode 0x00000010 = some .sha256 ∧ decode 0x00000011 = some .sha256d ∧
    decode 0x00000012 = some .checksum := by decide

theorem test_decode_kdf : decode 0x00000020 = some .scryptA ∧ decode 0x00000021 = some .scryptB ∧
    decode 0x00000022 = some .scryptC := by decide

theorem test_decode_cipher : decode 0x00000030 = some .aesEnc ∧ decode 0x00000031 = some .aesDec ∧
    decode 0x00000032 = some .encMasked32 ∧ decode 0x00000033 = some .decMasked32 ∧
    decode 0x00000034 = some .decMasked24 := by decide

theorem test_decode_ec : decode 0x00000040 = some .ecBasemulU ∧ decode 0x00000140 = some .ecBasemulC ∧
    decode 0x00000041 = some .modmul ∧ decode 0x00000042 = some .factorb := by decide

theorem test_decode_control : decode 0x000000F0 = some .zeroize := by decide

theorem test_decodeTableWord : decodeTableWord 32 0x140 = some .ecBasemulC ∧
    decodeTableWord 32 0x13 = none ∧ decodeTableWord 8 0x1F0 = some .zeroize := by decide

/-! ### The checks of R129 on ill-formed words (95_test_vectors.md 2.5) -/

theorem test_unassigned_refused : opAssigned 0x00000013 = false ∧ legalWord 0x00000013 = false ∧
    legalWord 0x00000000 = false ∧ legalWord 0x00000035 = false ∧ legalWord 0x00000043 = false := by
  decide

theorem test_reserved_bits_refused : rsvZero 0x00000240 = false ∧ legalWord 0x00000240 = false ∧
    rsvZero 0x80000010 = false ∧ legalWord 0x80000010 = false ∧ legalWord 0xFFFFFFFF = false := by decide

theorem test_point_bit_refused : pointBitAllowed 0x00000110 = false ∧ legalWord 0x00000110 = false ∧
    pointBitAllowed 0x000001F0 = false ∧ pointBitAllowed 0x00000140 = true := by decide

theorem test_reject_unassigned : decodeWord 0x00000013 = .error .unassignedOpcode := rfl

theorem test_reject_point_bit : decodeWord 0x00000110 = .error .pointBit := rfl

theorem test_reject_reserved_bits : decodeWord 0x80000010 = .error .reservedBits := rfl

/-! ### One step of each command (95_test_vectors.md 2.1 to 2.5) -/

/-- Bytes past VLEN do not count. -/
theorem test_sha256_abc : after (exec .sha256 (withMessage "abcX" 3)) (fun t => t.dout.toList) =
    some (natBe 32 0xba7816bf8f01cfea414140de5dae2223b00361a396177a9cb410ff61f20015ad) := by
  decide +kernel

theorem test_sha256_length : after (exec .sha256 { dirty with vlen := 257 })
    (fun t => (t.err, t.dout.toList)) = some (.length, List.replicate 32 0xFF#8) := by decide +kernel

theorem test_sha256d_empty : after (exec .sha256d (withMessage "" 0)) (fun t => t.dout.toList) =
    some (natBe 32 0x5df6e0e2761359d30a8275058e299fcc0381534545f55cf43e41983f5d4c9456) := by
  decide +kernel

theorem test_sha256d_length : after (exec .sha256d { dirty with vlen := 511 }) statusWord =
    some 0x00000206 := by decide +kernel

theorem test_checksum_address :
    after (exec .checksum (withMessage "1Jq6MksXQVWzrznvZzxkV6oY57oWXD9TXB" 34))
      (fun t => (t.chk.toList, t.dout.toList)) =
    some ([0xe9#8, 0x57#8, 0xa2#8, 0x4a#8], List.replicate 32 0#8) := by decide +kernel

theorem test_checksum_length : after (exec .checksum { dirty with vlen := 300 })
    (fun t => (t.err, t.chk.toList)) = some (.length, List.replicate 4 0xFF#8) := by decide +kernel

theorem test_scryptA_length : after (exec .scryptA { dirty with vlen := 257 })
    (fun t => (t.err, t.key.toList)) = some (.length, List.replicate 32 0xFF#8) := by decide +kernel

/-- The Salsa20/8 vector of RFC 7914, section 8. -/
theorem test_salsa208 :
    salsa208 (natBe 64 0x7e879a214f3ec9867ca940e641718f26baee555b8c61c1b50df846116dcd3b1dee24f319df9b3d8514121e4b5ac5aa3276021d2909c74829edebc68db8b8c25e) =
      natBe 64 0xa41f859c6608cc993b81cacb020cef05044b2181a2fd337dfd7b1c6396682f29b4393168e3c9e6bcfe6bc5b7a06d96bae424cc102c91745c24ad673dc7618f81 := by
  decide +kernel

theorem test_scryptB_length : after (exec .scryptB { dirty with vlen := 257 })
    (fun t => (t.err, t.sca.toList)) = some (.length, List.replicate 32 0xFF#8) := by decide +kernel

/-- The first half of the PBKDF2 vector of RFC 7914, section 11. -/
theorem test_pbkdf2 : pbkdf2 (ascii "passwd".toList) (ascii "salt".toList) 1 32 =
    natBe 32 0x55ac046e56e3089fec1691c22544b605f94185216dde0465e68b9d57c20dacbc := by decide +kernel

theorem test_scryptC_uncompressed : after (exec .scryptC { dirty with publen := 65 }) statusWord =
    some 0x00000206 := by decide +kernel

theorem test_scryptC_reset : after (exec .scryptC State.reset) (fun t => t.err) = some .length := by
  decide +kernel

/-- DOUT[16:32) is unchanged and DIN[16:32) has no effect. -/
theorem test_aesEnc_fips : after (exec .aesEnc
    { State.reset with
      key := buf 32 0x000102030405060708090a0b0c0d0e0f101112131415161718191a1b1c1d1e1f
      din := buf 32 0x00112233445566778899aabbccddeeffffffffffffffffffffffffffffffffff
      dout := fill 32 0x11 }) (fun t => t.dout.toList) =
    some (natBe 32 0x8ea2b7ca516745bfeafc49904b49608911111111111111111111111111111111) := by
  decide +kernel

theorem test_aesDec_fips : after (exec .aesDec
    { State.reset with
      key := buf 32 0x000102030405060708090a0b0c0d0e0f101112131415161718191a1b1c1d1e1f
      din := buf 32 (0x8ea2b7ca516745bfeafc49904b496089 * 2 ^ 128)
      dout := fill 32 0x11 }) (fun t => t.dout.toList) =
    some (natBe 32 0x00112233445566778899aabbccddeeff11111111111111111111111111111111) := by
  decide +kernel

/-- The masked vectors' MASK and KEY are SCRYPT_A's of the source's example. -/
def example8 : State :=
  { State.reset with
    mask := buf 32 0xf87648a6b42fdd86ef6837a249cde15318f264d43a859b610e78ea63d51cb2d3
    key := buf 32 0xe60bf44bfb29d543bba24afcccfadbfc6ef9312fcccf589fa5ea1366ec21e4c0 }

theorem test_encMasked32_record : after (exec .encMasked32
    { example8 with din := buf 32 0xcbf4b9f70470856bb4f40f80b87edb90865997ffee6df315ab166d713af433a5 })
    (fun t => t.dout.toList) =
    some (natBe 32 0xd357fafb81c71f8375a9a4d0ac02bad5f6c87c4b459fabe34c0c314b33708ec3) := by
  decide +kernel

theorem test_decMasked32_record : after (exec .decMasked32
    { example8 with din := buf 32 0xd357fafb81c71f8375a9a4d0ac02bad5f6c87c4b459fabe34c0c314b33708ec3 })
    (fun t => t.dout.toList) =
    some (natBe 32 0xcbf4b9f70470856bb4f40f80b87edb90865997ffee6df315ab166d713af433a5) := by
  decide +kernel

/-- BIP38 EC-multiply vector 1; DOUT[24:32) is unchanged and DIN[24:32) ignored. -/
theorem test_decMasked24_seed : after (exec .decMasked24
    { State.reset with
      mask := buf 32 0xda2d320e2ca088575369601e94dd71f210fc69c047a3d0f48bdbaab595916dc7
      key := buf 32 0xb8d083ea2678b5a71558c0fb0efa58b565227d05adf0c25fa0b9a74755477827
      din := buf 32 0x31a7c4ec3b84deba1749e6be9706cf334fed7df565c0c9fbffffffffffffffff
      dout := fill 32 0x22 }) (fun t => t.dout.toList) =
    some (natBe 32 0x99241d58245c883896f80843d2846672d7312e6195ca1a6c2222222222222222) := by
  decide +kernel

theorem test_ecBasemulU_one : after (exec .ecBasemulU { State.reset with sca := buf 32 1 })
    (fun t => (t.pub.toList, t.publen)) =
    some (0x04#8 :: natBe 32 baseX ++ natBe 32 baseY, 65#7) := by decide +kernel

/-- n is not reduced to 0, nor 2^256 - 1 modulo n: SCALAR, PUB and PUBLEN unchanged. -/
theorem test_ecBasemulU_scalar : after (exec .ecBasemulU { dirty with sca := buf 32 curveN })
    (fun t => (t.err, t.publen, t.pub.toList)) = some (.scalar, 33#7, List.replicate 65 0xFF#8) := by
  decide +kernel

/-- k = n - 1 gives -G, odd y; the tail of PUB becomes zero. -/
theorem test_ecBasemulC_minus_one : after (exec .ecBasemulC { dirty with sca := buf 32 (curveN - 1) })
    (fun t => (t.pub.toList, t.publen)) =
    some (0x03#8 :: natBe 32 baseX ++ List.replicate 32 0#8, 33#7) := by decide +kernel

theorem test_ecBasemulC_zero : after (exec .ecBasemulC State.reset) statusWord = some 0x00000302 := by
  decide +kernel

theorem test_modmul_minus_one_squared : after (exec .modmul
    { State.reset with sca := buf 32 (curveN - 1), scb := buf 32 (curveN - 1) })
    (fun t => (t.sca.toList, t.scb.toList)) = some (natBe 32 1, natBe 32 (curveN - 1)) := by
  decide +kernel

theorem test_modmul_reduces : after (exec .modmul
    { State.reset with sca := fill 32 0xFF, scb := buf 32 1 }) (fun t => t.sca.toList) =
    some (natBe 32 0x14551231950b75fc4402da1732fc9bebe) := by decide +kernel

theorem test_factorb_seed : after (exec .factorb
    { State.reset with
      dout := buf 32 0x99241d58245c883896f80843d2846672d7312e6195ca1a6cffffffffffffffff })
    (fun t => t.scb.toList) =
    some (natBe 32 0x3ccd8eb80d8021af67b0e066af9434d5ce210cc77856b0cb125a09b3e26f5a78) := by
  decide +kernel

/-- WBUSY stays set, IRQ_EN is unchanged. -/
theorem test_zeroize_dirty : after (exec .zeroize dirty)
    (fun t => (buffersZero t, statusWord t, t.doneIe, t.lastcmd)) =
    some (true, 0x00000006, true, 0x40) := by decide +kernel

/-! ### The bus and the steps (95_test_vectors.md 2.5, 2.6) -/

/-- STATUS = 0x206 and the four W1C writes of R35. -/
theorem test_status_w1c :
    let s := { State.reset with done := true, wbusy := true, err := .length }
    statusWord s = 0x206 ∧ statusWord (memWrite s 0x008 0x2) = 0x204 ∧
      statusWord (memWrite s 0x008 0x4) = 0x202 ∧ statusWord (memWrite s 0x008 0xF01) = 0x206 ∧
      statusWord (memWrite s 0x008 0x6) = 0x200 := by decide +kernel

/-- Writes and reads while SHA256 runs. -/
theorem test_busy_accesses :
    memRead { running with chk := fill 4 0xE9 } 0x0C0 = 0 ∧ memRead running 0x004 = 0x10 ∧
      memRead running 0x010 = 3 ∧ statusWord (memWrite running 0x0C0 0x12345678) = 0x5 ∧
      (memWrite running 0x004 0x11).lastcmd = 0x10 ∧ (memWrite running 0x00C 1).doneIe = true := by
  decide +kernel

/-- An illegal word with DONE_IE = 1: STATUS 0x102 and irq at once; with WBUSY set, 0x106. -/
theorem test_illegal_issue :
    statusWord (memWrite { State.reset with doneIe := true } 0x004 0x13) = 0x102 ∧
      irq (memWrite { State.reset with doneIe := true } 0x004 0x13) = true ∧
      statusWord (memWrite { State.reset with wbusy := true } 0x004 0x110) = 0x106 := by decide +kernel

/-- "abc" on its lanes, PUB's last word, and VLEN's nine bits. -/
theorem test_lanes :
    (memWrite State.reset 0x200 0x00636261).vbuf.toList.take 4 = [0x61#8, 0x62#8, 0x63#8, 0#8] ∧
      memRead (memWrite State.reset 0x180 0xFFFFFFFF) 0x180 = 0xFF ∧
      memRead (memWrite State.reset 0x010 300) 0x010 = 0x12C ∧
      memRead (memWrite State.reset 0x010 0x200) 0x010 = 0 := by decide +kernel

/-- A scalar 1 loaded by eight bus writes. -/
theorem test_big_endian_scalar : scaNat (memWrite State.reset 0x0FC 0x01000000) = 1 := by decide +kernel

/-- The first step after reset runs the command placed for it. -/
theorem test_step_runs_placed_word : after (step (State.reset.withFetchWord 32 0xF0))
    (fun t => (statusWord t, t.pend)) = some (0x2, 0xF0) := by decide +kernel

/-- Host access, completion, reset: three events in their order. -/
theorem test_step_events :
    after (step { running with inputs := [.read 0x004, .engine] }) (fun t => (t.rdata, t.inputs)) =
        some (0x10, [.engine]) ∧
      after (step { running with inputs := [.reset, .engine] }) (fun t => (t.busy, t.inputs)) =
        some (false, [.engine]) := by decide +kernel

/-- A memory in canonical form keeps it: a zero written removes its entry. -/
theorem test_memory_canonical : Memory.write (Memory.write [] 5 1#8) 2 3#8 = [(2, 3#8), (5, 1#8)] ∧
    Memory.write [(2, 3#8), (5, 1#8)] 2 0#8 = [(5, 1#8)] := by decide

/-- The source's example record decodes: flag, checksum (95_test_vectors.md 1, step 1). -/
theorem test_decode_record :
    (decodeRecord "6PRVWUbkzzsbcVac2qwfssoUJAN1Xhrg6bNk8J7Nzm5H7kxEbn2Nh2ZoGg".toList).map
      (fun r => (r.flag, r.checksum)) = some (0xC0#8, natBe 4 0xe957a24a) := by decide +kernel

/-- The address of the source's example key (95_test_vectors.md 1, step 6). -/
theorem test_address_example :
    let pub := natBe 65 0x04d2ce831dd06e5c1f5b1121ef34c2af4bcb01b126e309234adbc3561b60c9360ea7f23327b49ba7f10d17fad15f068b8807dbbc9e4ace5d4a0b40264eefaf31a4
    keyHash pub = natBe 20 0xc39293b72e265fb943019423fa3950854514a70f ∧
      address pub .bitcoinMain = some "1Jq6MksXQVWzrznvZzxkV6oY57oWXD9TXB".toList := by decide +kernel

/-- A session that holds every copy, on a GKB with every buffer non-zero. -/
def holding : Session :=
  { gkb := dirty, copies := ⟨some [1#8], some [2#8], some [3#8], some [4#8]⟩ }

/-- The lot/sequence record of 95_test_vectors.md 2.7: rejected before any command, the copies cleared. -/
theorem test_lot_sequence_rejected :
    let z := decryptText "6PgHn9P5er3tvHDG8CcPmf521nnYJB16EWqzHSqX37xReyQMXE7JGWnr4f".toList
      (ascii "x".toList) .bitcoinMain holding
    z.2 = .error .unsupportedFeature ∧ z.1.copies = noCopies ∧ z.1.gkb.key.toList = dirty.key.toList := by
  decide +kernel

/-- FAIL: ZEROIZE, WAIT, the host's own copies cleared (R412). -/
theorem test_fail_zeroizes :
    let z := failWith (α := Unit) .wrongPassphrase holding
    buffersZero z.1.gkb = true ∧ z.1.gkb.busy = false ∧ z.1.gkb.lastcmd = 0xF0 ∧
      z.1.copies = noCopies ∧ holding.copies ≠ noCopies := by decide +kernel

/-- A word in each buffer is read at the base R90 gives it. -/
theorem test_window_bases :
    let s := { State.reset with
      key := fill 32 1, mask := fill 32 2, din := fill 32 3, dout := fill 32 4, chk := fill 4 5
      osalt := fill 8 6, sca := fill 32 7, scb := fill 32 8, pub := fill 65 9, vbuf := fill 256 10 }
    ([0x040, 0x060, 0x080, 0x0A0, 0x0C0, 0x0C8, 0x0E0, 0x100, 0x140, 0x200] : List (BitVec 12)).map
      (fun o => (memRead s o).extractLsb' 0 8) = [1, 2, 3, 4, 5, 6, 7, 8, 9, 10] := by decide +kernel

/-! ### Witnesses: for every statement with hypotheses, cases that meet them -/

theorem witness_ResetStepAbandonsTheRunningCommand :
    ∃ (s : State) (rest : List Input), s.inputs = .reset :: rest ∧ s.busy = true ∧ s.vlen ≠ 0 :=
  ⟨{ running with inputs := [.reset] }, [], rfl, rfl, by decide⟩

theorem witness_LegalWordsAreExactlyTheTable :
    decode 0x140 = some .ecBasemulC ∧ decode 0x10 = some .sha256 ∧ decode 0x110 = none := by decide

theorem witness_StepRunsThePendingCommand :
    (running.busy = true ∧ decode running.pend = some .sha256 ∧ running.inputs = []) ∧
      ({ running with inputs := [.engine, .reset] }).inputs = [.engine, .reset] := by
  refine ⟨⟨rfl, ?_, rfl⟩, rfl⟩
  decide

theorem witness_StepPerformsTheHostAccess :
    ({ dirty with inputs := [.read 0xFFF] }).inputs = .read 0xFFF :: [] ∧
      ({ dirty with inputs := [.write 0x000 1] }).inputs = .write 0x000 1 :: [] ∧
      (dirty.busy = false ∧ ({ dirty with inputs := [.engine] }).inputs = .engine :: []) ∧
      dirty.inputs = [] := ⟨rfl, rfl, ⟨rfl, rfl⟩, rfl⟩

theorem decode_sha256_word : decode running.pend = some .sha256 := by decide

theorem decode_running : (decode running.pend).isSome = true := by decide

/-- The running SHA256 meets the invariant, with events to come or without. -/
theorem inv_running (l : List Input) : Inv { running with inputs := l } where
  busy_clean := fun _ => ⟨rfl, rfl⟩
  busy_pending := fun _ => ⟨rfl, decode_running⟩
  scratch_zero := rfl
  illegal_recorded := fun h => nomatch h
  length_raised := fun h => nomatch h
  scalar_raised := fun h => nomatch h

theorem witness_EveryStepKeepsTheInvariant :
    Inv { running with inputs := [.engine] } ∧
      ∃ t, step { running with inputs := [.engine] } = .next t := by
  refine ⟨inv_running _, ?_⟩
  have h : ∃ t, engineTurn running = .next t := by
    rw [engineTurn_busy rfl decode_sha256_word]
    unfold exec execSha256
    rw [withVbuf_eq_next (by decide)]
    exact ⟨_, rfl⟩
  exact h

theorem witness_InvariantStatesAlwaysStep : Inv { running with inputs := [.engine] } := inv_running _

/-- Without a reset among the events for the first clause, with one for the second. -/
theorem witness_EveryAcceptedCommandCompletes :
    (Inv { running with inputs := [.read 0x008, .write 0x080 1, .engine] } ∧ running.busy = true ∧
      decode running.pend = some .sha256 ∧
      .reset ∉ ([.read 0x008, .write 0x080 1, .engine] : List Input)) ∧
    Inv { running with inputs := [.read 0x008, .write 0x080 1, .reset, .engine] } ∧
      Inv { running with inputs := [] } :=
  ⟨⟨inv_running _, rfl, decode_sha256_word, by decide⟩, inv_running _, inv_running _⟩

/-- SCRATCH's highest address of the least size stays listed across a read. -/
theorem witness_ScratchStaysCanonical :
    let s := { State.reset with scratch := [(0, 1#8), (16777215, 2#8)], inputs := [.read 0x000] }
    Memory.wf s.scratch = true ∧ Memory.inScratch s.scratch = true ∧ ∃ t, step s = .next t := by
  refine ⟨by decide, ?_, _, rfl⟩
  have h : 16777215 < Config.scratchBytes := Nat.lt_add_right _ (by decide)
  have h0 : 0 < Config.scratchBytes := Nat.zero_lt_of_lt h
  simp [Memory.inScratch, h, h0]

/-- First and last byte of the first buffer and of PUB, VBUF's last. -/
theorem witness_BufferBytesOnTheirLanes : dirty.busy = false ∧ 0 < bufferLen .key ∧
    31 < bufferLen .key ∧ 64 < bufferLen .pub ∧ 255 < bufferLen .vbuf := ⟨rfl, by decide⟩

theorem witness_PubsLastWordCarriesOneByte : dirty.busy = false := rfl

/-- Both ends of every reserved range. -/
theorem witness_ReservedOffsetsReadZeroAndIgnoreWrites :
    (∀ o ∈ ([0x018, 0x03F, 0x0C4, 0x0C7, 0x0D0, 0x0DF, 0x120, 0x13F, 0x184, 0x1FF, 0x300, 0xFFF] :
      List (BitVec 12)), reservedOffset o = true) ∧
    ∀ o ∈ ([0x000, 0x017, 0x040, 0x0C3, 0x0C8, 0x0CF, 0x0E0, 0x11F, 0x140, 0x183, 0x200, 0x2FF] :
      List (BitVec 12)), reservedOffset o = false := by decide +kernel

/-- Two states that only the buffers, PEND and SCRATCH tell apart; the region's two ends. -/
theorem witness_BusyReadsShowNoBuffer : running.busy = true ∧
    SameRegisters running { running with key := fill 32 0xFF, pend := 0xF0, scratch := [(5, 1#8)] } ∧
    0x040 ≤ (0x040 : BitVec 12).toNat ∧ (0x2FF : BitVec 12).toNat ≤ 0x2FF :=
  ⟨rfl, ⟨rfl, rfl, rfl, rfl, rfl, rfl, rfl, rfl⟩, by decide⟩

/-- Besides STATUS and IRQ_EN: their neighbours, CMD and VLEN, and the window's ends. -/
theorem witness_BusyWritesAreDropped : running.busy = true ∧
    ∀ o ∈ ([0x000, 0x004, 0x010, 0x014, 0x040, 0xFFF] : List (BitVec 12)),
      alignOffset o ≠ 0x008 ∧ alignOffset o ≠ 0x00C := ⟨rfl, by decide +kernel⟩

theorem witness_CompletionsRaiseTheInterrupt :
    (∃ t, exec .modmul dirty = .next t ∧ dirty.doneIe = true) ∧
      (0x2 : Word).getLsbD 1 = true ∧ (0xFFFFFFFE : Word).getLsbD 0 = false ∧ dirty.busy = false :=
  ⟨⟨_, rfl, rfl⟩, by decide, by decide, rfl⟩

theorem witness_LengthRegistersStoreTheirField : dirty.busy = false := rfl

/-- The first and last word of VBUF, CHK's one word, PUB's last. -/
theorem witness_BufferWritesChangeOnlyTheirBytes : dirty.busy = false ∧
    (∀ o ∈ ([(0x200, .vbuf), (0x2FF, .vbuf), (0x0C3, .chk), (0x183, .pub)] :
      List (BitVec 12 × Buffer)), bufferBase o.2 ≤ alignOffset o.1 ∧
        alignOffset o.1 < bufferBase o.2 + bufferLen o.2) := ⟨rfl, by decide +kernel⟩

/-- KEY's first word, VBUF's last, and PUB's last whole word. -/
theorem witness_ReadAfterWriteReturnsTheWord : dirty.busy = false ∧
    (∀ o ∈ ([(0x040, .key), (0x2FC, .vbuf), (0x17C, .pub)] : List (BitVec 12 × Buffer)),
      bufferBase o.2 ≤ alignOffset o.1 ∧ alignOffset o.1 + 4 ≤ bufferBase o.2 + bufferLen o.2) :=
  ⟨rfl, by decide +kernel⟩

theorem witness_IssueAcceptsExactlyTheLegalWords : dirty.busy = false ∧
    (decode 0x140).isSome = true ∧ decode 0x240 = none := ⟨rfl, by decide⟩

theorem witness_IllegalWordsEndAtOnce :
    dirty.busy = false ∧ decode 0x1F0 = none ∧ dirty.doneIe = true := ⟨rfl, by decide, rfl⟩

theorem witness_CompletionsEndTheCommand : ∃ t, exec .factorb dirty = .next t := ⟨_, rfl⟩

theorem witness_ErroringCommandsWriteNoBuffer :
    (∃ t, exec .scryptC { dirty with publen := 34 } = .next t ∧ t.err ≠ .none) ∧
      ∃ t, exec .ecBasemulC { dirty with sca := Bytes.zero 32 } = .next t ∧ t.err ≠ .none :=
  ⟨⟨_, rfl, by decide⟩, ⟨endCommand .scalar { dirty with sca := Bytes.zero 32 }, rfl, by decide⟩⟩

/-- The two sides of each operand range, and a state for each. -/
theorem witness_CommandsEndWithTheirErrorExactly :
    ({ dirty with vlen := 256 }).vlen.toNat ≤ 256 ∧ 256 < ({ dirty with vlen := 257 }).vlen.toNat ∧
      dirty.publen.toNat = 33 ∧ ({ dirty with publen := 32 }).publen.toNat ≠ 33 ∧
      beNat (buf 32 0).toList = 0 ∧ 1 ≤ beNat (buf 32 1).toList ∧
      beNat (buf 32 (curveN - 1)).toList < curveN ∧ curveN ≤ beNat (buf 32 curveN).toList := by
  decide +kernel

/-- VLEN = 256 for the digest, VLEN = 257 for LENGTH: also SHA256D, CHECKSUM, SCRYPT_A and SCRYPT_B. -/
theorem witness_Sha256WritesTheDigest : ({ dirty with vlen := 256 }).vlen.toNat ≤ 256 ∧
    256 < ({ dirty with vlen := 257 }).vlen.toNat := by decide

/-- The two sides of HMAC's key length, and the least iteration count. -/
theorem witness_ScryptAWritesMaskAndKey : (List.replicate 64 1#8).length ≤ 64 ∧
    64 < (List.replicate 65 1#8).length ∧ 1 ≤ 1 := by simp

/-- The least block size, for Integerify and, in SCRYPT_C's statement, for BlockMix. -/
theorem witness_ScryptBWritesThePassfactor : 1 ≤ 1 ∧ (List.replicate 128 1#8).length = 128 * 1 := by
  simp

theorem witness_ScryptCWritesMaskAndKey : (dirty.publen.toNat = 33 ∧
    ({ dirty with publen := 34 }).publen.toNat ≠ 33) ∧ 0 + 1 < 2 * 1 := by decide

/-- Scalars 1 and n - 1, then 0 and n: also for the compressed form. -/
theorem witness_EcBasemulUWritesTheUncompressedPoint :
    (1 ≤ beNat (buf 32 1).toList ∧ beNat (buf 32 1).toList < curveN) ∧
      baseMul (beNat (buf 32 1).toList) = .affine baseX baseY ∧
      (1 ≤ beNat (buf 32 (curveN - 1)).toList ∧ beNat (buf 32 (curveN - 1)).toList < curveN) ∧
      beNat (buf 32 0).toList = 0 ∧ curveN ≤ beNat (buf 32 curveN).toList := by decide +kernel

/-- Two states that differ in what no command reads. -/
theorem witness_ResultsDependOnlyOnTheReadSet (i : Instr) :
    readsAgree i dirty { dirty with scratch := [], lastcmd := 7, wbusy := false, rdata := 9, pend := 3 } ∧
      ∃ t, exec .modmul dirty = .next t ∧ t.err = .none :=
  ⟨⟨fun _ => rfl, fun _ => rfl, fun r _ => by cases r.1 <;> rfl⟩, _, rfl, rfl⟩

theorem witness_reads_and_writes_each_clause :
    writesByte .modmul .sca 31 = true ∧ writesByte .modmul .scb 0 = false ∧
      writesByte .aesEnc .dout 15 = true ∧ writesByte .aesEnc .dout 16 = false ∧
      writesVlen .zeroize = true ∧ writesVlen .modmul = false ∧ writesPublen .ecBasemulC = true ∧
      writesPublen .scryptC = false := by decide

theorem witness_CommandsWriteOnlyTheirBuffers : ∃ t, exec .aesEnc dirty = .next t := ⟨_, rfl⟩

theorem witness_PaddingFillsWholeBlocks : (List.replicate 55 0x61#8).length = 55 ∧
    (List.replicate 56 0x61#8).length = 56 ∧ (List.replicate 256 0x61#8).length = 256 ∧
    64 % 64 = 0 ∧ (List.replicate 55 0x61#8).length + 9 ≤ 64 := by decide +kernel

theorem witness_SboxIsTheAffineInverse : sbox 0x00 = 0x63 ∧ sbox 0x01 = 0x7c ∧ gfMul 0x53 0xca = 1 := by
  decide +kernel

theorem witness_AesDecryptionInvertsEncryption :
    (natBe 32 1).length = 32 ∧ (natBe 16 1).length = 16 := by decide

theorem witness_MaskedDecryptionRestoresThePlaintext :
    ∃ t u, exec .encMasked32 dirty = .next t ∧ exec .decMasked32 { t with din := t.dout } = .next u :=
  ⟨_, _, rfl, rfl⟩

theorem witness_SeedDecryptionInvertsItsEncryption :
    (natBe 24 1).length = 24 ∧ (natBe 32 2).length = 32 ∧ (natBe 32 3).length = 32 := by decide

theorem witness_ScalarMultiplicationIsRepeatedAddition :
    curveN < 2 ^ 256 ∧ 2 ^ 256 - 1 < 2 ^ 256 ∧ baseMul 2 = pointMulRepeated basePoint 2 := by
  decide +kernel

theorem witness_ScalarsInRangeGiveCurvePoints : 1 ≤ curveN - 1 ∧ curveN - 1 < curveN ∧ 1 < curveN ∧
    onCurve basePoint = true := by decide +kernel

theorem witness_SerializedPointsHaveTheirForm : baseX < 2 ^ 256 ∧ baseY < 2 ^ 256 ∧ baseY % 2 = 0 := by
  decide +kernel

theorem witness_AssemblerNamesGiveTheirWords :
    "ec_basemul.c".toList.map Char.toUpper = (mnemonicOf .ecBasemulC).toList := by decide +kernel

/-- Also for HostSequencesEndZeroized. -/
theorem witness_DecryptReturnsOnlyVerifiedKeys : holding.gkb.busy = false := rfl

theorem witness_LotSequenceRecordsAreRejected : ([0x61#8] : List Byte).length ≤ 256 ∧
    flagNonEc 0x04 = false ∧ flagLotSequence 0x04 = true := by decide

theorem witness_EncryptThenDecryptRoundTrips : (natBe 32 1).length = 32 ∧
    scalarInRange (beNat (natBe 32 1)) = true ∧ scalarInRange (beNat (natBe 32 (curveN - 1))) = true ∧
    (List.replicate 256 0x61#8).length ≤ 256 ∧ networkVersion .bitcoinMain = some 0x00 ∧
    holding.gkb.busy = false ∧ standardVectors.length = 6 := by decide +kernel

end Sys2Proof.Tests
end

section
/-! PROOF. What a step does to SCRATCH (R61, R384): it stays as it was or becomes all zero. No step writes
a single byte of it, so its canonical form and its size are kept. -/

namespace Sys2Proof.Machine

@[simp] theorem issue_scratch (s : State) (w : Word) : (issue s w).scratch = s.scratch := by
  cases hd : decode w with
  | none => rw [issue_eq_illegal hd, endIllegal_scratch]
  | some i => rw [issue_eq_accept hd, accept_scratch]

/-- SCRATCH is not in the register window: no host write reaches it (R61). -/
@[simp] theorem memWrite_scratch (s : State) (off : BitVec 12) (v : Word) :
    (memWrite s off v).scratch = s.scratch := by
  rcases memWrite_cases s off v with h | h | ⟨-, h⟩ | ⟨-, h | h | h | ⟨b, -, h⟩ | h⟩ <;>
    simp [h]

/-- Every ending of a command, successful or erroring, leaves SCRATCH all zero (R384). -/
theorem exec_scratch {i : Instr} {s t : State} (h : exec i s = .next t) :
    t.scratch = Memory.zeroed := by
  rcases exec_endings h with ⟨u, -, rfl⟩ | ⟨-, rfl⟩ | ⟨-, rfl⟩ <;> exact endCommand_scratch ..

theorem engineTurn_scratch_cases {s t : State} (h : engineTurn s = .next t) :
    t.scratch = s.scratch ∨ t.scratch = Memory.zeroed := by
  rcases engineTurn_cases h with ⟨-, rfl⟩ | ⟨-, i, -, hx⟩
  · exact .inl rfl
  · exact .inr (exec_scratch hx)

theorem react_scratch_cases {e : Input} {s t : State} (h : react e s = .next t) :
    t.scratch = s.scratch ∨ t.scratch = Memory.zeroed := by
  cases e with
  | read off => cases h; exact .inl rfl
  | write off v => cases h; exact .inl (memWrite_scratch s off v)
  | engine => exact engineTurn_scratch_cases h
  | reset => cases h; exact .inr rfl

/-- All a step can do to SCRATCH where it answers a next state. -/
theorem step_scratch_cases {s t : State} (h : step s = .next t) :
    t.scratch = s.scratch ∨ t.scratch = Memory.zeroed := by
  cases hin : s.inputs with
  | nil => rw [step_nil hin] at h; exact engineTurn_scratch_cases h
  | cons e rest =>
    rw [step_cons hin] at h
    have hreact := react_scratch_cases h
    exact hreact

/-- Settles O12: a step keeps SCRATCH or clears it, and the all-zero memory is canonical and lists no
address. -/
theorem scratchStaysCanonical : Obligations.ScratchStaysCanonical := by
  intro s t hwf hin hstep
  rcases step_scratch_cases hstep with hsame | hzero
  · rw [hsame]
    exact ⟨hwf, hin⟩
  · rw [hzero]
    exact ⟨memory_wf_zeroed, memory_inScratch_zeroed⟩

end Sys2Proof.Machine
end

section
/-! PROOF. What a read and a write do at each register of the window and outside them (R85, R86, R90,
R91), and the statements of the state family that follow from it. -/

namespace Sys2Proof.Machine

/-- Bits 1:0 of an offset are dropped (R85). -/
theorem alignOffset_eq (off : BitVec 12) : alignOffset off = off.toNat / 4 * 4 := by
  have hand : off &&& 0xFFC#12 = off >>> 2 <<< 2 := by
    ext i hi
    interval_cases i <;> simp
  have hlt := off.isLt
  rw [alignOffset, hand, BitVec.toNat_shiftLeft, BitVec.toNat_ushiftRight, Nat.shiftLeft_eq,
    Nat.shiftRight_eq_div_pow]
  omega

/-! ### Reads at the registers -/

theorem memRead_id (s : State) : memRead s 0x000 = idWord := rfl
theorem memRead_cmd (s : State) : memRead s 0x004 = s.lastcmd := rfl
theorem memRead_status (s : State) : memRead s 0x008 = statusWord s := rfl
theorem memRead_irqEn (s : State) : memRead s 0x00C = irqEnWord s := rfl
theorem memRead_vlen (s : State) : memRead s 0x010 = s.vlen.setWidth 32 := rfl
theorem memRead_publen (s : State) : memRead s 0x014 = s.publen.setWidth 32 := rfl

/-! ### Writes at the registers -/

theorem memWrite_status (s : State) (v : Word) : memWrite s 0x008 v = writeStatus s v := rfl
theorem memWrite_irqEn (s : State) (v : Word) : memWrite s 0x00C v = writeIrqEn s v := rfl

theorem memWrite_cmd {s : State} (h : s.busy = false) (v : Word) :
    memWrite s 0x004 v = issue s v := by
  simp [memWrite, alignOffset_eq, h]

theorem memWrite_vlen {s : State} (h : s.busy = false) (v : Word) :
    memWrite s 0x010 v = { s with vlen := v.extractLsb' 0 9 } := by
  simp [memWrite, alignOffset_eq, h]

theorem memWrite_publen {s : State} (h : s.busy = false) (v : Word) :
    memWrite s 0x014 v = { s with publen := v.extractLsb' 0 7 } := by
  simp [memWrite, alignOffset_eq, h]

/-! ### Accesses outside the registers and the buffers (R90, R91) -/

theorem mem_allBuffers (b : Buffer) : b ∈ allBuffers := by cases b <;> decide

theorem bufferAt_eq_none_iff (o : Nat) :
    bufferAt o = none ↔
      ∀ b, o < bufferBase b ∨ bufferBase b + 4 * ((bufferLen b + 3) / 4) ≤ o := by
  simp only [bufferAt, List.find?_eq_none, mem_allBuffers, true_imp_iff, bufferCovers,
    Bool.and_eq_true, decide_eq_true_eq, not_and_or, Nat.not_le, Nat.not_lt]

/-- The registers end at 0x017, and the word of a reserved offset belongs to no buffer (R90). -/
theorem reservedOffset_word {off : BitVec 12} (h : reservedOffset off = true) :
    0x018 ≤ alignOffset off ∧ bufferAt (alignOffset off) = none := by
  simp only [reservedOffset, Bool.or_eq_true, Bool.and_eq_true, decide_eq_true_eq] at h
  rw [bufferAt_eq_none_iff, alignOffset_eq]
  refine ⟨by omega, fun b => ?_⟩
  cases b <;> simp only [bufferBase, bufferLen] <;> omega

theorem memRead_reserved {off : BitVec 12} (h : reservedOffset off = true) (s : State) :
    memRead s off = 0#32 := by
  obtain ⟨hreg, hbuf⟩ := reservedOffset_word h
  simp only [memRead, hbuf]
  repeat rw [if_neg (by omega)]

theorem memWrite_reserved {off : BitVec 12} (h : reservedOffset off = true) (s : State) (v : Word) :
    memWrite s off v = if s.busy then markDropped s else s := by
  obtain ⟨hreg, hbuf⟩ := reservedOffset_word h
  simp only [memWrite, hbuf]
  iterate 2 rw [if_neg (by omega)]
  split
  · rfl
  · repeat rw [if_neg (by omega)]

theorem memWrite_id (s : State) (v : Word) :
    memWrite s 0x000 v = if s.busy then markDropped s else s := by
  have hb : bufferAt 0x000 = none := by decide
  simp [memWrite, alignOffset_eq, hb]

/-- Settles O15, from the accesses at a reserved offset, at ID and at CMD. -/
theorem reservedOffsetsReadZeroAndIgnoreWrites :
    Obligations.ReservedOffsetsReadZeroAndIgnoreWrites :=
  ⟨fun s _ v h => ⟨memRead_reserved h s, memWrite_reserved h s v⟩,
    fun s v => ⟨memRead_id s, memRead_cmd s, memWrite_id s v⟩⟩

/-! ### STATUS and IRQ_EN (R35, R36) -/

theorem getLsbD_append_ofBool_zero {n : Nat} (x : BitVec n) (b : Bool) :
    (x ++ BitVec.ofBool b).getLsbD 0 = b := by
  simp [BitVec.getElem_append]

theorem getLsbD_append_ofBool_succ {n : Nat} (x : BitVec n) (b : Bool) (i : Nat) :
    (x ++ BitVec.ofBool b).getLsbD (i + 1) = x.getLsbD i := by
  simp [BitVec.getLsbD_append]

theorem statusWord_busy (s : State) : (statusWord s).getLsbD 0 = s.busy :=
  getLsbD_append_ofBool_zero ..

theorem statusWord_done (s : State) : (statusWord s).getLsbD 1 = s.done :=
  (getLsbD_append_ofBool_succ ..).trans (getLsbD_append_ofBool_zero ..)

theorem statusWord_wbusy (s : State) : (statusWord s).getLsbD 2 = s.wbusy :=
  (getLsbD_append_ofBool_succ ..).trans <|
    (getLsbD_append_ofBool_succ ..).trans (getLsbD_append_ofBool_zero ..)

/-- Above its three flags STATUS holds the ERR code between two reserved fields (R35). -/
theorem statusWord_above_flags (s : State) (i : Nat) :
    (statusWord s).getLsbD (i + 3) = (0#20 ++ errCode s.err ++ 0#5).getLsbD i :=
  (getLsbD_append_ofBool_succ ..).trans <|
    (getLsbD_append_ofBool_succ ..).trans (getLsbD_append_ofBool_succ ..)

theorem statusWord_reservedLow (s : State) : (statusWord s).extractLsb' 3 5 = 0#5 := by
  ext i hi
  rw [BitVec.getElem_extractLsb', Nat.add_comm, statusWord_above_flags, BitVec.getLsbD_append]
  simp [hi]

theorem statusWord_err (s : State) : (statusWord s).extractLsb' 8 4 = errCode s.err := by
  ext i hi
  rw [BitVec.getElem_extractLsb', show 8 + i = i + 5 + 3 by omega, statusWord_above_flags,
    BitVec.getLsbD_append, BitVec.getLsbD_append]
  simp [hi]

theorem statusWord_reservedHigh (s : State) : (statusWord s).extractLsb' 12 20 = 0#20 := by
  ext i hi
  rw [BitVec.getElem_extractLsb', show 12 + i = i + 9 + 3 by omega, statusWord_above_flags,
    BitVec.getLsbD_append, BitVec.getLsbD_append]
  simp

theorem irqEnWord_doneIe (s : State) : (irqEnWord s).getLsbD 0 = s.doneIe :=
  getLsbD_append_ofBool_zero ..

theorem irqEnWord_reserved (s : State) : (irqEnWord s).extractLsb' 1 31 = 0#31 := by
  ext i hi
  rw [BitVec.getElem_extractLsb', Nat.add_comm]
  exact (getLsbD_append_ofBool_succ ..).trans (by simp)

/-- Write-one-to-clear: a flag is cleared where its bit of the word is set (R35). -/
theorem and_not_eq_ite (flag bit : Bool) : (flag && !bit) = if bit then false else flag := by
  cases bit <;> simp

/-- Settles O18: each field of STATUS by the bits it stands in, the write by its definition. -/
theorem statusReadsAndClears : Obligations.StatusReadsAndClears := by
  intro s v
  rw [memRead_status, memWrite_status]
  refine ⟨statusWord_busy s, statusWord_done s, statusWord_wbusy s, statusWord_reservedLow s,
    statusWord_err s, statusWord_reservedHigh s, ?_⟩
  simp only [writeStatus, and_not_eq_ite]

/-- Settles O19, from IRQ_EN's bits as read and its write. -/
theorem interruptEnableHoldsOneBit : Obligations.InterruptEnableHoldsOneBit := by
  refine ⟨rfl, fun s v => ?_⟩
  rw [memRead_irqEn, memWrite_irqEn]
  exact ⟨irqEnWord_doneIe s, irqEnWord_reserved s, rfl, rfl⟩

/-! ### VLEN and PUBLEN (R38, R39) -/

/-- The low field of a word is the word's value cut to the field's width. -/
theorem extractLsb'_zero_eq_ofNat (v : Word) (n : Nat) :
    v.extractLsb' 0 n = BitVec.ofNat n v.toNat := by
  apply BitVec.eq_of_toNat_eq
  simp

/-- Settles O21: a length register reads back its field, extended by zeros. -/
theorem lengthRegistersStoreTheirField : Obligations.LengthRegistersStoreTheirField := by
  intro s v hidle
  rw [memWrite_vlen hidle, memWrite_publen hidle, memRead_vlen, memRead_publen,
    extractLsb'_zero_eq_ofNat, extractLsb'_zero_eq_ofNat]
  refine ⟨?_, ?_, rfl, rfl⟩
  · simp only [BitVec.toNat_setWidth, BitVec.toNat_ofNat]
    omega
  · simp only [BitVec.toNat_setWidth, BitVec.toNat_ofNat]
    omega

end Sys2Proof.Machine
end

section
/-! PROOF. The state after reset and the invariant (R34, R60, R61, R63, R430). -/

namespace Sys2Proof.Machine

/-! ### Reset (R63) -/

theorem bufferBytes_reset (b : Buffer) :
    bufferBytes State.reset b = List.replicate (bufferLen b) 0#8 := by
  cases b <;> rfl

/-- Settles O1: reset's fields as written, the buffers by name. -/
theorem resetLeavesTheSpecsValues : Obligations.ResetLeavesTheSpecsValues :=
  ⟨memRead_id _, rfl, rfl, rfl, rfl, rfl, rfl, rfl, rfl, bufferBytes_reset, memory_read_zeroed, rfl⟩

/-! ### What keeps the invariant -/

/-- Idle with ERR = NONE and SCRATCH zero is enough for the invariant. -/
theorem inv_of_idle {s : State} (hbusy : s.busy = false) (herr : s.err = .none)
    (hscratch : s.scratch = Memory.zeroed) : Inv s where
  busy_clean := by simp [hbusy]
  busy_pending := by simp [hbusy]
  scratch_zero := hscratch
  illegal_recorded := by simp [herr]
  length_raised := by simp [herr]
  scalar_raised := by simp [herr]

/-- Settles O9: reset is idle with ERR = NONE and SCRATCH zero. -/
theorem resetMeetsTheInvariant : Obligations.ResetMeetsTheInvariant := inv_of_idle rfl rfl rfl

theorem inv_resetGkb (s : State) : Inv (resetGkb s) := inv_of_idle rfl rfl rfl

/-- The elements the invariant speaks of are the same in two states, but that DONE may be cleared. -/
structure KeepsCommand (s t : State) : Prop where
  lastcmd : t.lastcmd = s.lastcmd
  busy : t.busy = s.busy
  done : s.done = false → t.done = false
  err : t.err = s.err
  pend : t.pend = s.pend
  scratch : t.scratch = s.scratch

theorem inv_of_keepsCommand {s t : State} (hs : Inv s) (h : KeepsCommand s t) : Inv t where
  busy_clean hb := by
    obtain ⟨hdone, herr⟩ := hs.busy_clean (h.busy ▸ hb)
    exact ⟨h.done hdone, h.err.trans herr⟩
  busy_pending hb := by
    rw [h.pend, h.lastcmd]
    exact hs.busy_pending (h.busy ▸ hb)
  scratch_zero := h.scratch.trans hs.scratch_zero
  illegal_recorded he := by
    rw [h.lastcmd]
    exact hs.illegal_recorded (h.err ▸ he)
  length_raised he := by
    rw [h.lastcmd]
    exact hs.length_raised (h.err ▸ he)
  scalar_raised he := by
    rw [h.lastcmd]
    exact hs.scalar_raised (h.err ▸ he)

theorem keepsCommand_writeStatus (s : State) (v : Word) : KeepsCommand s (writeStatus s v) :=
  ⟨rfl, rfl, fun h => by rw [writeStatus_done, h, Bool.false_and], rfl, rfl, rfl⟩

theorem keepsCommand_writeBufferWord (s : State) (b : Buffer) (o : Nat) (v : Word) :
    KeepsCommand s (writeBufferWord s b o v) := by
  constructor <;> simp

/-- Issue keeps the invariant: an accepted word is pending and last, with DONE and ERR cleared; an
illegal word is the last one when ERR says so (R380, R382). -/
theorem inv_issue {s : State} (hs : Inv s) (hidle : s.busy = false) (w : Word) :
    Inv (issue s w) := by
  cases hd : decode w with
  | none =>
    rw [issue_eq_illegal hd]
    constructor <;> simp [hidle, hd, hs.scratch_zero]
  | some i =>
    rw [issue_eq_accept hd]
    constructor <;> simp [hd, hs.scratch_zero]

/-- A host write keeps the invariant: outside an issue it leaves the command's own elements alone. -/
theorem inv_memWrite {s : State} (hs : Inv s) (off : BitVec 12) (v : Word) :
    Inv (memWrite s off v) := by
  rcases memWrite_cases s off v with h | h | ⟨-, h⟩ | ⟨hidle, h | h | h | ⟨b, -, h⟩ | h⟩ <;> rw [h]
  · exact inv_of_keepsCommand hs (keepsCommand_writeStatus s v)
  · exact inv_of_keepsCommand hs ⟨rfl, rfl, id, rfl, rfl, rfl⟩
  · exact inv_of_keepsCommand hs ⟨rfl, rfl, id, rfl, rfl, rfl⟩
  · exact inv_issue hs hidle v
  · exact inv_of_keepsCommand hs ⟨rfl, rfl, id, rfl, rfl, rfl⟩
  · exact inv_of_keepsCommand hs ⟨rfl, rfl, id, rfl, rfl, rfl⟩
  · exact inv_of_keepsCommand hs (keepsCommand_writeBufferWord s b _ v)
  · exact hs

/-- A completion of the last command meets the invariant: each code stands only where the command that
raises it does (R383, R384, R430). -/
theorem inv_exec {i : Instr} {s t : State} (hlast : decode s.lastcmd = some i)
    (h : exec i s = .next t) : Inv t := by
  rcases exec_endings h with ⟨u, -, rfl⟩ | ⟨hi, rfl⟩ | ⟨hi, rfl⟩
  · exact inv_of_idle rfl rfl rfl
  · constructor <;> simp [hlast, hi]
  · constructor <;> simp [hlast, hi]

theorem inv_engineTurn {s t : State} (hs : Inv s) (h : engineTurn s = .next t) : Inv t := by
  rcases engineTurn_cases h with ⟨-, rfl⟩ | ⟨hbusy, i, hd, hexec⟩
  · exact hs
  · obtain ⟨hpend, -⟩ := hs.busy_pending hbusy
    exact inv_exec (hpend ▸ hd) hexec

/-- What one event does keeps the invariant. -/
theorem inv_react {e : Input} {s t : State} (hs : Inv s) (h : react e s = .next t) : Inv t := by
  cases e with
  | read off => cases h; exact inv_of_keepsCommand hs ⟨rfl, rfl, id, rfl, rfl, rfl⟩
  | write off v => cases h; exact inv_memWrite hs off v
  | engine => exact inv_engineTurn hs h
  | reset => cases h; exact inv_resetGkb s

/-- Settles O8, by the events a step takes. -/
theorem everyStepKeepsTheInvariant : Obligations.EveryStepKeepsTheInvariant := by
  intro s t hs hstep
  cases hin : s.inputs with
  | nil => exact inv_engineTurn hs (step_nil hin ▸ hstep)
  | cons e rest =>
    rw [step_cons hin] at hstep
    have hqueue : Inv { s with inputs := rest } :=
      inv_of_keepsCommand hs ⟨rfl, rfl, id, rfl, rfl, rfl⟩
    exact inv_react hqueue hstep

/-! ### irq (R37, R442) -/

/-- The word of every command is legal and stands for it (R128, R129). -/
theorem decode_encode (i : Instr) : decode (encode i) = some i := by
  cases i with
  | sha256 => exact Laws.RoundTrip.sha256.2
  | sha256d => exact Laws.RoundTrip.sha256d.2
  | checksum => exact Laws.RoundTrip.checksum.2
  | scryptA => exact Laws.RoundTrip.scryptA.2
  | scryptB => exact Laws.RoundTrip.scryptB.2
  | scryptC => exact Laws.RoundTrip.scryptC.2
  | aesEnc => exact Laws.RoundTrip.aesEnc.2
  | aesDec => exact Laws.RoundTrip.aesDec.2
  | encMasked32 => exact Laws.RoundTrip.encMasked32.2
  | decMasked32 => exact Laws.RoundTrip.decMasked32.2
  | decMasked24 => exact Laws.RoundTrip.decMasked24.2
  | ecBasemulU => exact Laws.RoundTrip.ecBasemulU.2
  | ecBasemulC => exact Laws.RoundTrip.ecBasemulC.2
  | modmul => exact Laws.RoundTrip.modmul.2
  | factorb => exact Laws.RoundTrip.factorb.2
  | zeroize => exact Laws.RoundTrip.zeroize.2

/-- A completion sets DONE and keeps DONE_IE, so DONE_IE alone decides irq (R37). -/
theorem irq_of_exec {i : Instr} {s t : State} (h : exec i s = .next t) : irq t = s.doneIe := by
  rcases exec_endings h with ⟨u, hkeeps, rfl⟩ | ⟨-, rfl⟩ | ⟨-, rfl⟩
  · simp [irq, hkeeps.doneIe]
  · simp [irq]
  · simp [irq]

/-- Settles O20: a completion sets DONE; each way of clearing irq clears DONE or DONE_IE. -/
theorem completionsRaiseTheInterrupt : Obligations.CompletionsRaiseTheInterrupt := by
  refine ⟨fun i s t h => irq_of_exec h, fun s v hv => ?_, fun s v hv => ?_, fun s i hidle => ?_,
    fun s => rfl⟩
  · rw [memWrite_status, irq, writeStatus_done, hv, Bool.not_true, Bool.and_false, Bool.false_and]
  · rw [memWrite_irqEn, irq, writeIrqEn_doneIe, hv, Bool.and_false]
  · rw [memWrite_cmd hidle, issue_eq_accept (decode_encode i), irq, accept_done, Bool.false_and]

end Sys2Proof.Machine
end

section
/-! PROOF. What a command's completion leaves unchanged of the buffers and lengths (R51). -/

namespace Sys2Proof.Machine

/-- From s to t nothing is written that R51 does not list for command i. -/
def KeepsUnwritten (i : Instr) (s t : State) : Prop :=
  (∀ (b : Buffer) (j : Nat), writesByte i b j = false →
    (bufferBytes t b).getD j 0#8 = (bufferBytes s b).getD j 0#8) ∧
  (writesVlen i = false → t.vlen = s.vlen) ∧ (writesPublen i = false → t.publen = s.publen)

theorem keepsUnwritten_refl (i : Instr) (s : State) : KeepsUnwritten i s s :=
  ⟨fun _ _ _ => rfl, fun _ => rfl, fun _ => rfl⟩

@[simp] theorem bufferBytes_endCommand (c : ErrCode) (s : State) (b : Buffer) :
    bufferBytes (endCommand c s) b = bufferBytes s b := by
  cases b <;> rfl

/-- The end of a command writes no buffer and no length (R383). -/
theorem keepsUnwritten_endCommand {i : Instr} {s t : State} (h : KeepsUnwritten i s t)
    (c : ErrCode) : KeepsUnwritten i s (endCommand c t) := by
  simpa [KeepsUnwritten] using h

@[simp] theorem length_bufferBytes (s : State) (b : Buffer) :
    (bufferBytes s b).length = bufferLen b := by
  cases b <;> simp [bufferBytes, bufferLen]

/-- A byte the command does not write, at or past the start of one of its ranges, is past its end. -/
theorem rangeEnd_le_of_not_writesByte {i : Instr} {b : Buffer} {j lo hi : Nat}
    (h : writesByte i b j = false) (hr : (b, lo, hi) ∈ writeRanges i) (hj : lo ≤ j) : hi ≤ j := by
  have := List.any_eq_false.mp h _ hr
  simpa [hj] using this

/-- A command that writes each buffer in full or not at all keeps the rest: past a buffer's end there is
no byte to change. -/
theorem keepsUnwritten_of_full {i : Instr} {s t : State}
    (hbuf : ∀ b, (b, 0, bufferLen b) ∈ writeRanges i ∨ bufferBytes t b = bufferBytes s b)
    (hvlen : writesVlen i = false → t.vlen = s.vlen)
    (hpublen : writesPublen i = false → t.publen = s.publen) : KeepsUnwritten i s t := by
  refine ⟨fun b j hj => ?_, hvlen, hpublen⟩
  rcases hbuf b with hfull | hsame
  · have hend := rangeEnd_le_of_not_writesByte hj hfull (Nat.zero_le j)
    rw [List.getD_eq_default _ _ (by simpa using hend),
      List.getD_eq_default _ _ (by simpa using hend)]
  · rw [hsame]

/-- A string written at a buffer's start leaves the bytes past the string. -/
theorem getD_overwrite_of_le {n : Nat} (x : Bytes n) {l : List Byte} {j : Nat} (h : l.length ≤ j) :
    (overwrite x l).toList.getD j 0#8 = x.toList.getD j 0#8 := by
  rcases Nat.lt_or_ge j n with hj | hj
  · rw [toList_overwrite x (by omega), List.getD_append_right _ _ _ _ h]
    simp [List.getD, Nat.add_sub_cancel' h]
  · rw [List.getD_eq_default _ _ (by simpa using hj),
      List.getD_eq_default _ _ (by simpa using hj)]

/-- A cipher command whose output fills the range of DOUT that R51 lists keeps the rest. -/
theorem keepsUnwritten_writeDout {i : Instr} {l : List Byte}
    (h : writeRanges i = [(.dout, 0, l.length)]) (s : State) :
    KeepsUnwritten i s (writeDout s l) := by
  refine ⟨fun b j hj => ?_, fun _ => rfl, fun _ => rfl⟩
  cases b with
  | dout =>
    exact getD_overwrite_of_le s.dout (rangeEnd_le_of_not_writesByte hj (by simp [h]) (Nat.zero_le j))
  | key | mask | din | chk | osalt | sca | scb | pub | vbuf => rfl

/-- A command over VBUF keeps what its outputs keep. -/
theorem keepsUnwritten_withVbuf {i : Instr} {s t : State} {f : List Byte → State}
    (h : withVbuf s f = .next t) (hf : ∀ m, KeepsUnwritten i s (f m)) : KeepsUnwritten i s t := by
  rcases withVbuf_cases h with ⟨-, rfl⟩ | ⟨-, rfl⟩
  · exact keepsUnwritten_endCommand (hf _) _
  · exact keepsUnwritten_endCommand (keepsUnwritten_refl i s) _

theorem keepsUnwritten_complete {i : Instr} {s t u : State} (h : complete u = .next t)
    (hu : KeepsUnwritten i s u) : KeepsUnwritten i s t := by
  cases h
  exact keepsUnwritten_endCommand hu _

/-- EC_BASEMUL writes all of PUB and PUBLEN, or on an error nothing (R330). -/
theorem keepsUnwritten_ecBasemul {i : Instr} {s t : State} {ser : Point → List Byte} {len : BitVec 7}
    (h : ecBasemul ser len s = .next t) (hranges : writeRanges i = [(.pub, 0, 65)])
    (hpublen : writesPublen i = true) : KeepsUnwritten i s t := by
  rcases ecBasemul_cases h with ⟨-, rfl⟩ | ⟨-, rfl⟩
  · refine keepsUnwritten_endCommand ?_ _
    refine keepsUnwritten_of_full (fun b => ?_) (fun _ => rfl) (by simp [hpublen])
    cases b <;> simp [hranges, bufferLen, bufferBytes]
  · exact keepsUnwritten_endCommand (keepsUnwritten_refl i s) _

/-- SCRYPT_C writes all of MASK and KEY, or on an error nothing (R222). -/
theorem keepsUnwritten_execScryptC {s t : State} (h : execScryptC s = .next t) :
    KeepsUnwritten .scryptC s t := by
  rcases execScryptC_cases h with ⟨-, rfl⟩ | ⟨-, rfl⟩
  · refine keepsUnwritten_endCommand ?_ _
    refine keepsUnwritten_of_full (fun b => ?_) (fun _ => rfl) fun _ => rfl
    cases b <;> simp [writeRanges, bufferLen, bufferBytes]
  · exact keepsUnwritten_endCommand (keepsUnwritten_refl _ s) _

theorem keepsUnwritten_clearBuffers (s : State) : KeepsUnwritten .zeroize s (clearBuffers s) := by
  refine keepsUnwritten_of_full (fun b => .inl ?_) (by simp [writesVlen]) (by simp [writesPublen])
  exact List.mem_map_of_mem (mem_allBuffers b)

/-- Every command's completion keeps what R51 does not list as written by it. -/
theorem keepsUnwritten_exec {i : Instr} {s t : State} (h : exec i s = .next t) :
    KeepsUnwritten i s t := by
  cases i with
  | sha256 | sha256d | checksum | scryptA | scryptB =>
    simp only [exec, execSha256, execSha256d, execChecksum, execScryptA, execScryptB] at h
    refine keepsUnwritten_withVbuf h fun m => ?_
    refine keepsUnwritten_of_full (fun b => ?_) (fun _ => rfl) fun _ => rfl
    cases b <;> simp [writeRanges, bufferLen, bufferBytes]
  | scryptC => exact keepsUnwritten_execScryptC h
  | aesEnc | aesDec | encMasked32 =>
    refine keepsUnwritten_complete h (keepsUnwritten_writeDout ?_ s)
    simp [writeRanges]
  | decMasked32 =>
    refine keepsUnwritten_complete h (keepsUnwritten_writeDout ?_ s)
    rw [length_decryptMasked s.mask.length_eq]
    rfl
  | decMasked24 =>
    refine keepsUnwritten_complete h (keepsUnwritten_writeDout ?_ s)
    rw [length_decryptMasked24 s.mask.length_eq]
    rfl
  | modmul | factorb =>
    refine keepsUnwritten_complete h ?_
    refine keepsUnwritten_of_full (fun b => ?_) (fun _ => rfl) fun _ => rfl
    cases b <;> simp [writeRanges, bufferLen, bufferBytes]
  | ecBasemulU | ecBasemulC => exact keepsUnwritten_ecBasemul h rfl rfl
  | zeroize => exact keepsUnwritten_complete h (keepsUnwritten_clearBuffers s)

/-- Settles O47. `KeepsUnwritten` names its conclusion. -/
theorem commandsWriteOnlyTheirBuffers : Obligations.CommandsWriteOnlyTheirBuffers :=
  fun _ _ _ h => keepsUnwritten_exec h

end Sys2Proof.Machine
end

section
/-! PROOF. The buffers behind the register window: which word belongs to which buffer, byte lanes as read
and written, accesses while busy, and the host's accesses as steps (R82, R85, R86, R90, R92, R95, R96). -/

namespace Sys2Proof.Machine

/-! ### Host accesses as steps (R85, R86, R88, R471) -/

/-- Settles O7: a step takes the next event and reacts to it, and an idle engine's turn does nothing. -/
theorem stepPerformsTheHostAccess : Obligations.StepPerformsTheHostAccess := by
  refine fun s rest => ⟨fun off hin => ?_, fun off v hin => ?_, fun hidle hin => ?_, fun hidle hin => ?_⟩
  · rw [step_cons hin, react_read]
    rfl
  · rw [step_cons hin, react_write]
  · rw [step_cons hin, react_engine]
    exact engineTurn_idle hidle
  · rw [step_nil hin, engineTurn_idle hidle]

/-! ### Only the aligned offset counts (R85) -/

theorem alignOffset_and (off : BitVec 12) : alignOffset (off &&& 0xFFC#12) = alignOffset off := by
  rw [alignOffset, alignOffset, BitVec.and_assoc, BitVec.and_self]

theorem memRead_congr_alignOffset {off off' : BitVec 12} (h : alignOffset off = alignOffset off')
    (s : State) : memRead s off = memRead s off' := by
  rw [memRead, memRead, h]

theorem memWrite_congr_alignOffset {off off' : BitVec 12} (h : alignOffset off = alignOffset off')
    (s : State) (v : Word) : memWrite s off v = memWrite s off' v := by
  rw [memWrite, memWrite, h]

/-- Settles O24: clearing the two low bits keeps the aligned offset. -/
theorem offsetsAreAlignedDown : Obligations.OffsetsAreAlignedDown := fun s off v =>
  ⟨memRead_congr_alignOffset (alignOffset_and off).symm s,
    memWrite_congr_alignOffset (alignOffset_and off).symm s v⟩

/-! ### The buffer of a word (R90) -/

theorem bufferCovers_iff (b : Buffer) (o : Nat) : bufferCovers b o = true ↔
    bufferBase b ≤ o ∧ o < bufferBase b + 4 * ((bufferLen b + 3) / 4) := by
  simp [bufferCovers]

/-- Two buffers do not share a word of the window: one's words end before the other's begin. -/
def WordsApart (b c : Buffer) : Prop :=
  bufferBase b + 4 * ((bufferLen b + 3) / 4) ≤ bufferBase c ∨
    bufferBase c + 4 * ((bufferLen c + 3) / 4) ≤ bufferBase b

theorem wordsApart_of_ne {b c : Buffer} (h : b ≠ c) : WordsApart b c := by
  have hpairs : ∀ x ∈ allBuffers, ∀ y ∈ allBuffers, x ≠ y → WordsApart x y := by
    unfold WordsApart
    decide
  exact hpairs b (mem_allBuffers b) c (mem_allBuffers c) h

theorem eq_of_bufferCovers {b c : Buffer} {o : Nat} (hb : bufferCovers b o = true)
    (hc : bufferCovers c o = true) : b = c := by
  rw [bufferCovers_iff] at hb hc
  by_contra hne
  have := wordsApart_of_ne hne
  unfold WordsApart at this
  omega

theorem bufferAt_eq_some_iff {o : Nat} {b : Buffer} :
    bufferAt o = some b ↔ bufferCovers b o = true := by
  refine ⟨fun h => by simpa using List.find?_some h, fun hb => ?_⟩
  cases hc : bufferAt o with
  | none => exact absurd hb (List.find?_eq_none.mp hc b (mem_allBuffers b))
  | some c => rw [eq_of_bufferCovers hb (by simpa using List.find?_some hc)]

/-- An offset between a buffer's first and last byte belongs to that buffer. -/
theorem bufferAt_of_mem {o : Nat} {b : Buffer} (hlo : bufferBase b ≤ o)
    (hhi : o < bufferBase b + bufferLen b) : bufferAt o = some b := by
  rw [bufferAt_eq_some_iff, bufferCovers_iff]
  omega

/-- The buffers stand above the registers, at the start of a word and below 0x300 (R90). -/
theorem bufferBase_bounds (b : Buffer) :
    0x040 ≤ bufferBase b ∧ bufferBase b % 4 = 0 ∧ bufferBase b + bufferLen b ≤ 0x300 := by
  cases b <;> decide

theorem le_of_bufferAt {o : Nat} {b : Buffer} (h : bufferAt o = some b) : 0x040 ≤ o := by
  rw [bufferAt_eq_some_iff, bufferCovers_iff] at h
  exact (bufferBase_bounds b).1.trans h.1

/-! ### Accesses to a word of a buffer -/

theorem memRead_buffer {s : State} {off : BitVec 12} {b : Buffer} (hidle : s.busy = false)
    (h : bufferAt (alignOffset off) = some b) : memRead s off = bufferWord s b (alignOffset off) := by
  have hreg := le_of_bufferAt h
  simp only [memRead, h, hidle]
  repeat rw [if_neg (by omega)]
  rfl

theorem memWrite_buffer {s : State} {off : BitVec 12} {b : Buffer} (hidle : s.busy = false)
    (h : bufferAt (alignOffset off) = some b) (v : Word) :
    memWrite s off v = writeBufferWord s b (alignOffset off) v := by
  have hreg := le_of_bufferAt h
  simp only [memWrite, h, hidle]
  iterate 2 rw [if_neg (by omega)]
  rw [if_neg Bool.false_ne_true]
  repeat rw [if_neg (by omega)]

/-! ### The byte lanes of a word as read (R82, R85) -/

/-- Lane k of a little-endian word is its byte k (R82). -/
theorem wordLe_lane (f : Nat → Byte) {k : Nat} (hk : k < 4) :
    (wordLe (f 0) (f 1) (f 2) (f 3)).extractLsb' (8 * k) 8 = f k := by
  ext i hi
  rw [BitVec.getElem_extractLsb']
  simp only [wordLe, BitVec.getLsbD_append]
  interval_cases k <;> grind

/-- Two words with the same four byte lanes are the same word. -/
theorem word_eq_of_lanes {v w : Word}
    (h : ∀ k < 4, v.extractLsb' (8 * k) 8 = w.extractLsb' (8 * k) 8) : v = w := by
  ext i hi
  have hlane := congrArg (BitVec.getLsbD · (i % 8)) (h (i / 8) (by omega))
  simpa [Nat.mod_lt, Nat.div_add_mod, hi] using hlane

/-- Lane k of a buffer's word is the buffer's byte k places on, 0 past its end. -/
theorem bufferWord_lane (s : State) (b : Buffer) (o : Nat) {k : Nat} (hk : k < 4) :
    (bufferWord s b o).extractLsb' (8 * k) 8 = (bufferBytes s b).getD (o - bufferBase b + k) 0#8 :=
  wordLe_lane (fun j => (bufferBytes s b).getD (o - bufferBase b + j) 0#8) hk

/-- Settles O13: an index below the length lies in a word of the buffer, on the lane of its offset. -/
theorem bufferBytesOnTheirLanes : Obligations.BufferBytesOnTheirLanes := by
  refine ⟨fun s => rfl, fun s b i hidle hi => ?_⟩
  obtain ⟨-, hbase, hend⟩ := bufferBase_bounds b
  have halign : alignOffset (BitVec.ofNat 12 (bufferBase b + i)) = (bufferBase b + i) / 4 * 4 := by
    rw [alignOffset_eq, BitVec.toNat_ofNat, Nat.mod_eq_of_lt (by omega)]
  have hbuf : bufferAt ((bufferBase b + i) / 4 * 4) = some b := bufferAt_of_mem (by omega) (by omega)
  have hindex : (bufferBase b + i) / 4 * 4 - bufferBase b + (bufferBase b + i) % 4 = i := by omega
  rw [memRead_buffer hidle (halign ▸ hbuf), bufferWord_lane s b _ (Nat.mod_lt _ (by decide)), halign,
    hindex]

/-! ### The bytes of the buffers after a write (R86) -/

/-- A byte written to a buffer leaves every other buffer as it was. -/
theorem bufferBytes_writeBufferByte (s : State) (b c : Buffer) (i : Nat) (v : Byte) :
    bufferBytes (writeBufferByte s b i v) c =
      if c = b then (bufferBytes s c).set i v else bufferBytes s c := by
  cases b <;> cases c <;> rfl

theorem getD_writeBufferByte (s : State) (b : Buffer) (i : Nat) (v : Byte) {c : Buffer} {j : Nat}
    (hj : j < bufferLen c) :
    (bufferBytes (writeBufferByte s b i v) c).getD j 0#8 =
      if c = b ∧ i = j then v else (bufferBytes s c).getD j 0#8 := by
  rw [bufferBytes_writeBufferByte]
  by_cases hc : c = b
  · subst hc
    rw [if_pos rfl, List.getD_eq_getElem?_getD, List.getElem?_set, length_bufferBytes]
    by_cases hij : i = j
    · simp [hij, hj]
    · simp [hij]
  · simp [hc]

/-- After a word is written at o, byte j of the buffer at b carries lane b + j - o where there is such a
lane; every other byte of every buffer is as before. -/
theorem getD_writeBufferWord (s : State) {b : Buffer} {o : Nat} (v : Word) (ho : bufferBase b ≤ o)
    {c : Buffer} {j : Nat} (hj : j < bufferLen c) :
    (bufferBytes (writeBufferWord s b o v) c).getD j 0#8 =
      if c = b ∧ o ≤ bufferBase b + j ∧ bufferBase b + j < o + 4 then
        v.extractLsb' (8 * (bufferBase b + j - o)) 8
      else (bufferBytes s c).getD j 0#8 := by
  simp only [writeBufferWord, getD_writeBufferByte _ _ _ _ hj]
  by_cases h : c = b ∧ o ≤ bufferBase b + j ∧ bufferBase b + j < o + 4
  · rw [if_pos h]
    obtain ⟨hc, hlo, hhi⟩ := h
    obtain ⟨k, hk, hjk⟩ : ∃ k < 4, o - bufferBase b + k = j :=
      ⟨bufferBase b + j - o, by omega, by omega⟩
    rw [show bufferBase b + j - o = k by omega]
    interval_cases k <;> simp [hc, ← hjk]
  · rw [if_neg h]
    iterate 4 rw [if_neg fun hk => h ⟨hk.1, by omega, by omega⟩]

/-- Settles O22: the write is a word written to the buffer, whose lanes its bytes take. -/
theorem bufferWritesChangeOnlyTheirBytes : Obligations.BufferWritesChangeOnlyTheirBytes := by
  intro s off v b hidle hlo hhi
  rw [memWrite_buffer hidle (bufferAt_of_mem hlo hhi)]
  refine ⟨fun c j hj => ?_, ?_, by simp, by simp, by simp, by simp⟩
  · rw [getD_writeBufferWord s v hlo hj]
    refine if_ctx_congr Iff.rfl (fun hlane => ?_) fun _ => rfl
    have halign := alignOffset_eq off
    rw [show bufferBase b + j - alignOffset off = (bufferBase b + j) % 4 by omega]
  · constructor <;> simp

/-- Settles O23: each lane of the word read is a byte of the buffer, which the write gave that lane. -/
theorem readAfterWriteReturnsTheWord : Obligations.ReadAfterWriteReturnsTheWord := by
  intro s off v b hidle hlo hhi
  have hbuf : bufferAt (alignOffset off) = some b := bufferAt_of_mem hlo (by omega)
  rw [memWrite_buffer hidle hbuf, memRead_buffer (by simpa using hidle) hbuf]
  refine word_eq_of_lanes fun k hk => ?_
  rw [bufferWord_lane _ _ _ hk, getD_writeBufferWord s v hlo (by omega), if_pos ⟨rfl, by omega⟩,
    show bufferBase b + (alignOffset off - bufferBase b + k) - alignOffset off = k by omega]

/-! ### PUB's last word (R92) -/

theorem setByte_of_le {n : Nat} (x : Bytes n) {i : Nat} (h : n ≤ i) (v : Byte) :
    setByte x i v = x :=
  bytes_ext (List.set_eq_of_length_le (by simpa using h))

/-- A lane past the end of its buffer ignores writes (R86). -/
theorem writeBufferByte_of_le (s : State) {b : Buffer} {i : Nat} (h : bufferLen b ≤ i) (v : Byte) :
    writeBufferByte s b i v = s := by
  cases b <;> rw [bufferLen] at h <;> rw [writeBufferByte, setByte_of_le _ h]

/-- A lane past the end of its buffer reads zero (R85). -/
theorem getD_bufferBytes_of_le (s : State) {b : Buffer} {i : Nat} (h : bufferLen b ≤ i) :
    (bufferBytes s b).getD i 0#8 = 0#8 :=
  List.getD_eq_default _ _ (by simpa using h)

/-- A little-endian word whose upper lanes are zero is its first byte, zero-extended (R82). -/
theorem wordLe_low_byte (x : Byte) : wordLe x 0#8 0#8 0#8 = x.setWidth 32 := by
  ext i hi
  simp only [wordLe, BitVec.getElem_setWidth]
  grind

theorem memRead_pub_last {s : State} (hidle : s.busy = false) :
    memRead s 0x180 = (byteAt s.pub 64).setWidth 32 := by
  have hword : alignOffset 0x180 - bufferBase .pub = 64 := by decide
  have hpast (k : Nat) : (bufferBytes s .pub).getD (64 + (k + 1)) 0#8 = 0#8 :=
    getD_bufferBytes_of_le s (Nat.add_le_add_left (Nat.le_add_left 1 k) 64)
  rw [memRead_buffer (b := .pub) hidle (by decide), bufferWord, hword, hpast 0, hpast 1, hpast 2,
    wordLe_low_byte]
  rfl

theorem memWrite_pub_last {s : State} (hidle : s.busy = false) (v : Word) :
    memWrite s 0x180 v = { s with pub := setByte s.pub 64 (v.extractLsb' 0 8) } := by
  have hword : alignOffset 0x180 - bufferBase .pub = 64 := by decide
  have hpast (t : State) (k : Nat) (x : Byte) : writeBufferByte t .pub (64 + (k + 1)) x = t :=
    writeBufferByte_of_le t (Nat.add_le_add_left (Nat.le_add_left 1 k) 64) x
  rw [memWrite_buffer (b := .pub) hidle (by decide), writeBufferWord, hword, hpast _ 2, hpast _ 1,
    hpast _ 0]
  rfl

/-- Settles O14: of the lanes at 0x180 the first alone lies in PUB, and at 0x184 no buffer does. -/
theorem pubsLastWordCarriesOneByte : Obligations.PubsLastWordCarriesOneByte :=
  ⟨fun _ hidle => ⟨memRead_pub_last hidle, memWrite_pub_last hidle⟩, by decide, by decide, by decide⟩

/-! ### Accesses while busy (R95, R96) -/

/-- Above the registers every offset reads as zero while busy, buffer or not. -/
theorem memRead_busy {s : State} {off : BitVec 12} (hbusy : s.busy = true)
    (hreg : 0x018 ≤ alignOffset off) : memRead s off = 0#32 := by
  simp only [memRead, hbusy]
  repeat rw [if_neg (by omega)]
  cases bufferAt (alignOffset off) <;> rfl

/-- At the registers a read shows registers only, at all times. -/
theorem memRead_register_congr {s t : State} {off : BitVec 12} (h : SameRegisters s t)
    (hreg : alignOffset off < 0x018) : memRead t off = memRead s off := by
  have hbuf : bufferAt (alignOffset off) = none := by
    rw [bufferAt_eq_none_iff]
    exact fun b => .inl (hreg.trans_le (Nat.le_trans (by decide) (bufferBase_bounds b).1))
  simp only [memRead, hbuf, statusWord, irqEnWord, h.lastcmd, h.busy, h.done, h.wbusy, h.err, h.doneIe,
    h.vlen, h.publen]

theorem memRead_busy_congr {s t : State} (off : BitVec 12) (hbusy : s.busy = true)
    (h : SameRegisters s t) : memRead t off = memRead s off := by
  rcases Nat.lt_or_ge (alignOffset off) 0x018 with hreg | hreg
  · exact memRead_register_congr h hreg
  · rw [memRead_busy hbusy hreg, memRead_busy (h.busy.trans hbusy) hreg]

/-- Settles O16: above the registers reads are zero while busy, at the registers they show registers. -/
theorem busyReadsShowNoBuffer : Obligations.BusyReadsShowNoBuffer := by
  intro s hbusy
  refine ⟨fun off hlo _ => memRead_busy hbusy ?_, memRead_id s, memRead_cmd s, memRead_status s, ?_, ?_,
    ?_, fun t off h => memRead_busy_congr off hbusy h⟩
  · rw [alignOffset_eq]
    omega
  · rw [memRead_irqEn, irqEnWord_doneIe]
  · rw [memRead_vlen, BitVec.toNat_setWidth_of_le (by decide)]
  · rw [memRead_publen, BitVec.toNat_setWidth_of_le (by decide)]

/-- All a host write can do while busy (R96). -/
theorem memWrite_busy_cases {s : State} (hbusy : s.busy = true) (off : BitVec 12) (v : Word) :
    memWrite s off v = writeStatus s v ∨ memWrite s off v = writeIrqEn s v ∨
      memWrite s off v = markDropped s := by
  rcases memWrite_cases s off v with h | h | ⟨-, h⟩ | ⟨hidle, -⟩
  · exact .inl h
  · exact .inr (.inl h)
  · exact .inr (.inr h)
  · exact absurd hidle (by simp [hbusy])

theorem memWrite_dropped {s : State} {off : BitVec 12} (hbusy : s.busy = true)
    (hstatus : alignOffset off ≠ 0x008) (hirqEn : alignOffset off ≠ 0x00C) (v : Word) :
    memWrite s off v = markDropped s := by
  simp only [memWrite, if_neg hstatus, if_neg hirqEn, if_pos hbusy]

/-- Settles O17: the three writes possible while busy change flags only, and two of them are STATUS's and
IRQ_EN's. -/
theorem busyWritesAreDropped : Obligations.BusyWritesAreDropped := by
  refine fun s off v hbusy => ⟨fun h8 hC => memWrite_dropped hbusy h8 hC v, ?_⟩
  rcases memWrite_busy_cases hbusy off v with h | h | h <;> rw [h]
  · exact ⟨⟨rfl, rfl, rfl, rfl, rfl, rfl, rfl, rfl, rfl, rfl, rfl, rfl⟩, rfl, rfl, hbusy⟩
  · exact ⟨⟨rfl, rfl, rfl, rfl, rfl, rfl, rfl, rfl, rfl, rfl, rfl, rfl⟩, rfl, rfl, hbusy⟩
  · exact ⟨⟨rfl, rfl, rfl, rfl, rfl, rfl, rfl, rfl, rfl, rfl, rfl, rfl⟩, rfl, rfl, hbusy⟩

end Sys2Proof.Machine
end

section
/-! PROOF. Command words: their fields, the decoder and the encoder (R121, R128, R129), and the assembler's
names (R135, R136). -/

namespace Sys2Proof.Machine

/-! ### The fields of a command word (R121) -/

/-- C as a one-bit vector is bit 8 cut out of the word. -/
theorem ofBool_pointBit (w : Word) : BitVec.ofBool (pointBit w) = w.extractLsb' 8 1 := by
  rw [pointBit, BitVec.getLsbD_eq_extractLsb']
  generalize w.extractLsb' 8 1 = c
  revert c
  decide

/-- The three fields RSV, C and OP are all of a word: no bit is left out. -/
theorem append_fields (w : Word) : (rsvField w ++ BitVec.ofBool (pointBit w)) ++ opField w = w := by
  rw [ofBool_pointBit, rsvField, opField,
    BitVec.extractLsb'_append_extractLsb'_eq_extractLsb' (Nat.add_comm 1 8),
    BitVec.extractLsb'_append_extractLsb'_eq_extractLsb' (Nat.zero_add 8).symm]
  exact BitVec.extractLsb'_eq_self

theorem opField_encode (i : Instr) : opField (encode i) = opcodeOf i :=
  BitVec.extractLsb'_append_eq_right

theorem pointBit_encode (i : Instr) : pointBit (encode i) = pointBitOf i := by
  rw [pointBit, encode, BitVec.getLsbD_append, BitVec.getLsbD_append]
  simp

/-! ### The opcode map (R128) -/

theorem commandOf_of_not_mem {op : BitVec 8} (h : op ∉ opcodes) (c : Bool) : commandOf op c = none := by
  simp only [opcodes, List.mem_cons, List.not_mem_nil, or_false, not_or] at h
  simp only [commandOf, h, if_false]

/-- The map, row by row: an assigned opcode has a command, with that opcode, and C only counts for
EC_BASEMUL. -/
theorem fields_commandOf : ∀ op ∈ opcodes, ∀ c,
    (commandOf op c).map (fun i => (opcodeOf i, pointBitOf i)) = some (op, c && op == opEcBasemul) := by
  decide

theorem mem_opcodes_of_commandOf {op : BitVec 8} {c : Bool} {i : Instr} (h : commandOf op c = some i) :
    op ∈ opcodes := by
  by_contra hop
  simp [commandOf_of_not_mem hop] at h

theorem exists_commandOf_iff {op : BitVec 8} {c : Bool} :
    (∃ i, commandOf op c = some i) ↔ op ∈ opcodes := by
  refine ⟨fun ⟨i, h⟩ => mem_opcodes_of_commandOf h, fun hop => ?_⟩
  obtain ⟨i, hi, -⟩ := Option.map_eq_some_iff.mp (fields_commandOf op hop c)
  exact ⟨i, hi⟩

/-- Where C is allowed, the command of an opcode and C has just these fields. -/
theorem fields_of_commandOf {op : BitVec 8} {c : Bool} {i : Instr} (h : commandOf op c = some i)
    (hc : c = false ∨ op = opEcBasemul) : opcodeOf i = op ∧ pointBitOf i = c := by
  have hrow := fields_commandOf op (mem_opcodes_of_commandOf h) c
  rw [h, Option.map_some, Option.some_inj, Prod.mk.injEq] at hrow
  obtain ⟨hop, hbit⟩ := hrow
  refine ⟨hop, hbit.trans ?_⟩
  rcases hc with rfl | rfl <;> simp

/-! ### Decoding (R129) -/

/-- A word decodes to a command when RSV is 0, C is allowed and the map has the command at OP and C. -/
theorem decode_eq_some_iff {w : Word} {i : Instr} : decode w = some i ↔
    rsvField w = 0#23 ∧ (pointBit w = false ∨ opField w = opEcBasemul) ∧
      commandOf (opField w) (pointBit w) = some i := by
  unfold decode decodeWord
  by_cases hrsv : rsvField w = 0#23
  · by_cases hc : pointBit w = true ∧ opField w ≠ opEcBasemul
    · simp [hrsv, hc]
    · have hc' : pointBit w = false ∨ opField w = opEcBasemul := by
        rwa [not_and_or, Bool.not_eq_true, not_not] at hc
      cases hmap : commandOf (opField w) (pointBit w) <;> simp [hrsv, hc, hc']
  · simp [hrsv]

theorem isSome_decode_iff (w : Word) : (decode w).isSome = true ↔
    opField w ∈ opcodes ∧ rsvField w = 0#23 ∧ (pointBit w = false ∨ opField w = opEcBasemul) := by
  simp only [Option.isSome_iff_exists, decode_eq_some_iff, exists_and_left, exists_commandOf_iff]
  tauto

/-- A word that decodes has no bit its command does not give it. -/
theorem eq_encode_of_decode {w : Word} {i : Instr} (h : decode w = some i) : w = encode i := by
  obtain ⟨hrsv, hc, hmap⟩ := decode_eq_some_iff.mp h
  obtain ⟨hop, hbit⟩ := fields_of_commandOf hmap hc
  rw [encode, hop, hbit, ← hrsv, append_fields]

/-- Settles O5, from `eq_encode_of_decode` and `decode_encode`. -/
theorem decodeAndEncodeAgree : Obligations.DecodeAndEncodeAgree := by
  refine fun w i => ⟨eq_encode_of_decode, ?_⟩
  rintro rfl
  exact decode_encode i

theorem mem_instr_all (i : Instr) : i ∈ Instr.all := by cases i <;> decide

/-- The words that decode are the words of the commands. -/
theorem isSome_decode_iff_mem_encode (w : Word) :
    (decode w).isSome = true ↔ w ∈ Instr.all.map encode := by
  simp only [Option.isSome_iff_exists, decodeAndEncodeAgree w, List.mem_map, mem_instr_all, true_and,
    eq_comm (a := w)]

/-- Settles O4: the three checks by `decode_eq_some_iff`; by O5 the legal words and their fields are those
`encode` gives. -/
theorem legalWordsAreExactlyTheTable : Obligations.LegalWordsAreExactlyTheTable := by
  refine fun w => ⟨isSome_decode_iff w, isSome_decode_iff_mem_encode w, fun i h => ?_⟩
  rw [eq_encode_of_decode h]
  exact ⟨(opField_encode i).symm, (pointBit_encode i).symm⟩

/-- Settles O3: each of the words is the encoding of its command. -/
theorem decodesTheSpecsCommandWords : Obligations.DecodesTheSpecsCommandWords :=
  ⟨decode_encode .sha256, decode_encode .sha256d, decode_encode .checksum, decode_encode .scryptA,
    decode_encode .scryptB, decode_encode .scryptC, decode_encode .aesEnc, decode_encode .aesDec,
    decode_encode .encMasked32, decode_encode .decMasked32, decode_encode .decMasked24,
    decode_encode .ecBasemulU, decode_encode .ecBasemulC, decode_encode .modmul, decode_encode .factorb,
    decode_encode .zeroize⟩

/-! ### The assembler's names (R135, R136) -/

/-- The names `assemble` looks through, each with its command. -/
def assemblerNames : List (String × Instr) :=
  (Instr.all.map fun i => (mnemonicOf i, i)) ++ mnemonicAliases

theorem assemble_eq_find? (name : String) : assemble name =
    (assemblerNames.find? fun e => e.1.toList == name.toList.map Char.toUpper).map
      fun e => encode e.2 := rfl

/-- No name is given twice. -/
theorem nodup_assemblerNames : (assemblerNames.map Prod.fst).Nodup := by decide +kernel

/-- A name of the list, in any letter case, assembles to its own command's word. -/
theorem assemble_of_mem {e : String × Instr} {name : String} (he : e ∈ assemblerNames)
    (hname : name.toList.map Char.toUpper = e.1.toList) : assemble name = some (encode e.2) := by
  rw [assemble_eq_find?, hname]
  cases hfind : assemblerNames.find? fun d => d.1.toList == e.1.toList with
  | none => simpa using List.find?_eq_none.mp hfind e he
  | some d =>
    have hnames : d.1 = e.1 := by simpa [String.toList_inj] using List.find?_some hfind
    rw [List.inj_on_of_nodup_map nodup_assemblerNames (List.mem_of_find?_eq_some hfind) he hnames]
    rfl

theorem mnemonic_mem_assemblerNames (i : Instr) : (mnemonicOf i, i) ∈ assemblerNames := by
  rw [assemblerNames, List.mem_append, List.mem_map]
  exact .inl ⟨i, mem_instr_all i, rfl⟩

theorem assemble_of_mnemonic {i : Instr} {name : String}
    (hname : name.toList.map Char.toUpper = (mnemonicOf i).toList) : assemble name = some (encode i) :=
  assemble_of_mem (e := (mnemonicOf i, i)) (mnemonic_mem_assemblerNames i) hname

/-- The aliases are written in upper case. -/
theorem map_toUpper_mnemonicAliases :
    ∀ e ∈ mnemonicAliases, e.1.toList.map Char.toUpper = e.1.toList := by decide +kernel

theorem assemble_of_mem_mnemonicAliases (e : String × Instr) (he : e ∈ mnemonicAliases) :
    assemble e.1 = some (encode e.2) :=
  assemble_of_mem (List.mem_append_right _ he) (map_toUpper_mnemonicAliases e he)

theorem assemble_eq_none_iff (name : String) : assemble name = none ↔
    ∀ e ∈ assemblerNames, e.1.toList ≠ name.toList.map Char.toUpper := by
  simp [assemble_eq_find?]

/-- EC_BASEMUL must say its point form: without the suffix it is none of the names (R135). -/
theorem assemble_ecBasemul_unsuffixed : assemble "EC_BASEMUL" = none := by
  rw [assemble_eq_none_iff]
  decide +kernel

/-- Settles O56: the names are pairwise distinct, so each finds its own command. -/
theorem assemblerNamesGiveTheirWords : Obligations.AssemblerNamesGiveTheirWords := by
  refine ⟨fun i name hname => assemble_of_mnemonic hname, ?_⟩
  have haliases := assemble_of_mem_mnemonicAliases
  simp only [mnemonicAliases, List.forall_mem_cons] at haliases
  obtain ⟨henc, hdec, hdec24, hpoint, hmul, -⟩ := haliases
  exact ⟨henc, hdec, hdec24, hpoint, hmul, assemble_ecBasemul_unsuffixed⟩

end Sys2Proof.Machine
end

section
/-! PROOF. SHA-256's padding, and the commands of the hash family (R151, R160 to R162). -/

namespace Sys2Proof.Machine

/-! ### Padding (R151) -/

/-- The z of R151, the non-negative remainder of 55 - len(M): the zero bytes after 0x80. -/
def shaPadZeros (len : Nat) : Nat := (55 + 63 * len) % 64

theorem shaPad_eq (m : List Byte) :
    shaPad m =
      m ++ 0x80#8 :: List.replicate (shaPadZeros m.length) 0#8 ++ natBe 8 (8 * m.length) := by
  simp [shaPad, shaPadZeros]

theorem shaPadZeros_lt (len : Nat) : shaPadZeros len < 64 := Nat.mod_lt _ (by decide)

/-- With z zero bytes the message and they end 9 bytes short of a block. -/
theorem shaPadZeros_add_mod (len : Nat) : (shaPadZeros len + len) % 64 = 55 := by
  rw [shaPadZeros]
  omega

theorem length_shaPad (m : List Byte) :
    (shaPad m).length = m.length + 9 + shaPadZeros m.length := by
  simp only [shaPad_eq, List.length_append, List.length_cons, List.length_replicate, length_natBe]
  omega

theorem length_shaPad_mod (m : List Byte) : (shaPad m).length % 64 = 0 := by
  have hz := shaPadZeros_add_mod m.length
  rw [length_shaPad]
  omega

/-- z is below a block, so no smaller number of whole blocks has room for the 9 bytes of 0x80 and BE_8(L). -/
theorem length_shaPad_le (m : List Byte) {l : Nat} (hl : l % 64 = 0) (hroom : m.length + 9 ≤ l) :
    (shaPad m).length ≤ l := by
  have hblocks := length_shaPad_mod m
  have hz := shaPadZeros_lt m.length
  rw [length_shaPad] at hblocks ⊢
  omega

/-- Settles O48: the form by `shaPad_eq`, the length by `length_shaPad`. -/
theorem paddingFillsWholeBlocks : Obligations.PaddingFillsWholeBlocks := by
  refine ⟨fun m => ⟨shaPadZeros m.length, shaPadZeros_lt _, shaPadZeros_add_mod _, shaPad_eq m,
    length_shaPad_mod m, ?_, fun l => length_shaPad_le m⟩, fun m => ⟨?_, ?_, ?_⟩⟩
  · rw [length_shaPad]
    omega
  all_goals
    intro hlen
    rw [length_shaPad, hlen]
    rfl

/-! ### SHA256, SHA256D and CHECKSUM (R160, R161, R162) -/

theorem slice_zero_eq_take (b : List Byte) (n : Nat) : slice b 0 n = b.take n := rfl

theorem vbufBytes_eq_take (s : State) : vbufBytes s = s.vbuf.toList.take s.vlen.toNat :=
  slice_zero_eq_take ..

/-- A command that fills one buffer with a function of VBUF[0:VLEN): what it writes where VLEN ≤ 256, and
LENGTH with nothing written where VLEN > 256 (R433, R436). -/
theorem withVbuf_fills_buffer {n : Nat} {out : List Byte → List Byte} (hout : ∀ m, (out m).length = n)
    (s : State) (write : Bytes n → State) :
    (s.vlen.toNat ≤ 256 → ∃ d : Bytes n, d.toList = out (s.vbuf.toList.take s.vlen.toNat) ∧
      withVbuf s (fun m => write (bytesOf n (out m))) = .next (endCommand .none (write d))) ∧
    (256 < s.vlen.toNat →
      withVbuf s (fun m => write (bytesOf n (out m))) = .next (endCommand .length s)) := by
  refine ⟨fun hin => ⟨bytesOf n (out (vbufBytes s)), ?_, withVbuf_eq_next hin⟩, withVbuf_eq_length⟩
  rw [toList_bytesOf_full (hout _), vbufBytes_eq_take]

theorem length_checksumBytes (m : List Byte) : (slice (sha256d m) 0 4).length = 4 := by simp

/-- Settles O30: the digest fills DOUT. -/
theorem sha256WritesTheDigest : Obligations.Sha256WritesTheDigest :=
  ⟨decode_encode .sha256, fun s => withVbuf_fills_buffer length_sha256 s fun d => { s with dout := d }⟩

/-- Settles O31: the double digest fills DOUT. -/
theorem sha256dWritesTheDoubleDigest : Obligations.Sha256dWritesTheDoubleDigest :=
  ⟨decode_encode .sha256d,
    fun s => withVbuf_fills_buffer length_sha256d s fun d => { s with dout := d }⟩

/-- Settles O32: the double digest's first four bytes fill CHK. -/
theorem checksumWritesFourBytes : Obligations.ChecksumWritesFourBytes :=
  ⟨decode_encode .checksum,
    fun s => withVbuf_fills_buffer length_checksumBytes s fun d => { s with chk := d }⟩

end Sys2Proof.Machine
end

section
/-! PROOF. HMAC, PBKDF2, BlockMix, ROMix and scrypt as their rules write them, and the commands of the
key-derivation family (R200 to R215, R220 to R222). -/

namespace Sys2Proof.Machine

/-! ### Slices and pieces of byte strings (R14, R15) -/

theorem slice_drop (b : List Byte) (k i j : Nat) :
    slice (b.drop k) i j = slice b (k + i) (k + j) := by
  rw [slice, slice, List.drop_drop, Nat.add_sub_add_left]

/-- A slice that reaches to the end of the string. -/
theorem slice_eq_drop {b : List Byte} {i j : Nat} (h : b.length ≤ j) : slice b i j = b.drop i :=
  List.take_of_length_le (by rw [List.length_drop]; omega)

theorem getD_slice (b : List Byte) {i j k : Nat} (h : k < j - i) (d : Byte) :
    (slice b i j).getD k d = b.getD (i + k) d := by
  simp [slice, List.getD_eq_getElem?_getD, h]

/-- Piece i of n pieces of k bytes is the slice from k·i. -/
theorem chunks_eq_map_slice (k n : Nat) (b : List Byte) :
    chunks k n b = (List.range n).map fun i => slice b (k * i) (k * (i + 1)) := by
  induction n generalizing b with
  | zero => rfl
  | succ n ih =>
    rw [chunks, ih, List.range_succ_eq_map, List.map_cons, List.map_map]
    simp [slice_drop, slice_zero_eq_take, Function.comp_def, Nat.mul_succ, Nat.add_comm]

theorem leNat_eq_sum (l : List Byte) : leNat l =
    ((List.range l.length).map fun k => (l.getD k 0#8).toNat * 256 ^ k).sum := by
  induction l with
  | nil => rfl
  | cons x l ih =>
    rw [leNat, ih, List.length_cons, List.range_succ_eq_map, List.map_cons, List.map_map,
      List.sum_cons, ← List.sum_map_mul_left]
    simp [Function.comp_def, pow_succ', Nat.mul_left_comm]

/-- XOR with a string of one repeated byte, long enough, is XOR of each byte with it. -/
theorem xorBytes_replicate {b : List Byte} {n : Nat} (h : b.length ≤ n) (c : Byte) :
    xorBytes b (List.replicate n c) = b.map (· ^^^ c) := by
  rw [xorBytes]
  induction b generalizing n with
  | nil => rfl
  | cons x b ih =>
    cases n with
    | zero => exact absurd h (Nat.not_succ_le_zero _)
    | succ n =>
      rw [List.replicate_succ, List.zipWith_cons_cons, ih (Nat.le_of_succ_le_succ h), List.map_cons]

/-! ### HMAC (R200) -/

theorem hmacKey_of_le {k : List Byte} (h : k.length ≤ 64) :
    hmacKey k = k ++ List.replicate (64 - k.length) 0#8 := by
  rw [hmacKey, if_neg (Nat.not_lt.mpr h)]

theorem length_hmacKey (k : List Byte) : (hmacKey k).length = 64 := by
  rcases Nat.lt_or_ge 64 k.length with h | h
  · simp [hmacKey, h]
  · rw [hmacKey_of_le h, List.length_append, List.length_replicate]
    omega

/-- A key of more than a block counts as its digest. -/
theorem hmacKey_of_lt {k : List Byte} (h : 64 < k.length) : hmacKey k = hmacKey (sha256 k) := by
  rw [hmacKey_of_le (k := sha256 k) (by simp), hmacKey, if_pos h]

theorem hmac_eq (k m : List Byte) : hmac k m =
    sha256 ((hmacKey k).map (· ^^^ 0x5c#8) ++ sha256 ((hmacKey k).map (· ^^^ 0x36#8) ++ m)) := by
  simp only [hmac, xorBytes_replicate (length_hmacKey k).le]

theorem hmac_of_lt {k : List Byte} (h : 64 < k.length) (m : List Byte) :
    hmac k m = hmac (sha256 k) m := by
  rw [hmac_eq, hmac_eq, hmacKey_of_lt h]

/-! ### PBKDF2 (R201) -/

/-- U_k of block i, for k from 1. -/
def pbkdf2U (p s : List Byte) (i k : Nat) : List Byte :=
  (hmac p)^[k - 1] (hmac p (s ++ natBe 4 i))

theorem pbkdf2U_one (p s : List Byte) (i : Nat) : pbkdf2U p s i 1 = hmac p (s ++ natBe 4 i) := rfl

theorem pbkdf2U_succ (p s : List Byte) (i : Nat) {k : Nat} (h : 1 ≤ k) :
    pbkdf2U p s i (k + 1) = hmac p (pbkdf2U p s i k) := by
  obtain ⟨k, rfl⟩ := Nat.exists_eq_add_of_le' h
  exact Function.iterate_succ_apply' ..

/-- n rounds after U_k join U_{k+1} to U_{k+n} to T. -/
theorem pbkdf2Rounds_eq_foldl (p s : List Byte) (i n : Nat) {k : Nat} (h : 1 ≤ k) (t : List Byte) :
    pbkdf2Rounds p n (pbkdf2U p s i k) t =
      (List.range' (k + 1) n).foldl (fun t k => xorBytes t (pbkdf2U p s i k)) t := by
  induction n generalizing k t with
  | zero => rfl
  | succ n ih =>
    rw [pbkdf2Rounds, ← pbkdf2U_succ p s i h, ih (Nat.le_succ_of_le h), List.range'_succ,
      List.foldl_cons]

theorem pbkdf2_eq (p s : List Byte) (c dkLen : Nat) : pbkdf2 p s c dkLen =
    ((List.range' 1 ((dkLen + 31) / 32)).flatMap fun i =>
      (List.range' 2 (c - 1)).foldl (fun t k => xorBytes t (pbkdf2U p s i k))
        (pbkdf2U p s i 1)).take dkLen := by
  have hblock : pbkdf2Block p s c = fun i =>
      (List.range' 2 (c - 1)).foldl (fun t k => xorBytes t (pbkdf2U p s i k)) (pbkdf2U p s i 1) :=
    funext fun i => pbkdf2Rounds_eq_foldl p s i (c - 1) le_rfl _
  rw [pbkdf2, hblock, List.flatMap_def]

/-! ### BlockMix (R212) -/

/-- Y_i of BlockMix. -/
def blockMixY (b : List Byte) (r : Nat) : Nat → List Byte
  | 0 => salsa208 (xorBytes (slice b (64 * (2 * r - 1)) (128 * r)) (slice b 0 64))
  | i + 1 => salsa208 (xorBytes (blockMixY b r i) (slice b (64 * (i + 1)) (64 * (i + 2))))

theorem blockMixY_zero (b : List Byte) (r : Nat) : blockMixY b r 0 =
    salsa208 (xorBytes (slice b (64 * (2 * r - 1)) (128 * r)) (slice b 0 64)) := rfl

theorem blockMixY_succ (b : List Byte) (r i : Nat) : blockMixY b r (i + 1) =
    salsa208 (xorBytes (blockMixY b r i) (slice b (64 * (i + 1)) (64 * (i + 2)))) := rfl

/-- The outputs of the chain are any sequence that meets its recurrence. -/
theorem blockMixSteps_map {f y : Nat → List Byte} {x : List Byte}
    (hzero : y 0 = salsa208 (xorBytes x (f 0)))
    (hsucc : ∀ i, y (i + 1) = salsa208 (xorBytes (y i) (f (i + 1)))) (n : Nat) :
    blockMixSteps x ((List.range n).map f) = (List.range n).map y := by
  induction n generalizing f y x with
  | zero => rfl
  | succ n ih =>
    rw [List.range_succ_eq_map, List.map_cons, List.map_cons, List.map_map, List.map_map,
      blockMixSteps, ← hzero]
    exact congrArg _ (ih (hsucc 0) fun i => hsucc (i + 1))

theorem evens_cons {α : Type} (a : α) (l : List α) : evens (a :: l) = a :: evens l.tail := by
  cases l <;> rfl

/-- The even and the odd positions of a sequence's first 2·r values. -/
theorem evens_map_range {α : Type} (y : Nat → α) (r : Nat) :
    evens ((List.range (2 * r)).map y) = (List.range r).map (fun i => y (2 * i)) ∧
      evens ((List.range (2 * r)).map y).tail = (List.range r).map fun i => y (2 * i + 1) := by
  induction r generalizing y with
  | zero => exact ⟨rfl, rfl⟩
  | succ r ih =>
    obtain ⟨heven, hodd⟩ := ih fun i => y (i + 2)
    have hsplit : (List.range (2 * (r + 1))).map y =
        y 0 :: y 1 :: (List.range (2 * r)).map fun i => y (i + 2) := by
      simp [Nat.mul_succ, List.range_succ_eq_map, Function.comp_def]
    rw [hsplit, List.tail_cons, evens_cons, evens_cons, List.tail_cons, heven, hodd]
    simp [List.range_succ_eq_map, Function.comp_def, Nat.mul_succ]

theorem blockMix_eq (b : List Byte) (r : Nat) : blockMix b r =
    ((List.range r).flatMap fun i => blockMixY b r (2 * i)) ++
      (List.range r).flatMap fun i => blockMixY b r (2 * i + 1) := by
  have hsteps : blockMixSteps (slice b (64 * (2 * r - 1)) (128 * r)) (chunks 64 (2 * r) b) =
      (List.range (2 * r)).map (blockMixY b r) := by
    rw [chunks_eq_map_slice]
    exact blockMixSteps_map (f := fun i => slice b (64 * i) (64 * (i + 1)))
      (blockMixY_zero b r) (blockMixY_succ b r) _
  obtain ⟨heven, hodd⟩ := evens_map_range (blockMixY b r) r
  simp only [blockMix, hsteps, heven, hodd, List.flatMap_def]

/-! ### Integerify and ROMix (R213, R214) -/

theorem integerify_eq_sum {x : List Byte} {r : Nat} (hr : 1 ≤ r) (hx : x.length = 128 * r) :
    integerify x r =
      ((List.range 8).map fun k => (x.getD (64 * (2 * r - 1) + k) 0#8).toNat * 256 ^ k).sum := by
  have hlen : (slice x (64 * (2 * r - 1)) (64 * (2 * r - 1) + 8)).length = 8 := by
    rw [length_slice, hx]
    omega
  rw [integerify, leNat_eq_sum, hlen]
  refine congrArg List.sum (List.map_congr_left fun k hk => ?_)
  rw [getD_slice x (by simpa using hk)]

/-- x_i of ROMix's first loop: what V[i] holds. -/
def romixX (b : List Byte) (r i : Nat) : List Byte := (fun x => blockMix x r)^[i] b

theorem romixX_succ (b : List Byte) (r i : Nat) :
    romixX b r (i + 1) = blockMix (romixX b r i) r := Function.iterate_succ_apply' ..

theorem romixFill_eq (r n : Nat) (b : List Byte) :
    romixFill r n b = ((List.range n).map (romixX b r), romixX b r n) := by
  induction n generalizing b with
  | zero => rfl
  | succ n ih =>
    rw [romixFill, ih, List.range_succ_eq_map, List.map_cons, List.map_map]
    rfl

/-- A round of ROMix's second loop over an array whose entry j is x_j. -/
def romixRound (b : List Byte) (n r : Nat) (z : List Byte) : List Byte :=
  blockMix (xorBytes z (romixX b r (integerify z r % n))) r

/-- z_i of ROMix's second loop. -/
def romixZ (b : List Byte) (n r i : Nat) : List Byte := (romixRound b n r)^[i] (romixX b r n)

theorem romixZ_succ (b : List Byte) (n r i : Nat) :
    romixZ b n r (i + 1) = romixRound b n r (romixZ b n r i) := Function.iterate_succ_apply' ..

/-- Over the filled array of n > 0 entries, every entry a round names is in the array. -/
theorem romixMix_eq_iterate (b : List Byte) {n : Nat} (hn : 0 < n) (r rounds : Nat) (z : List Byte) :
    romixMix r n ((List.range n).map (romixX b r)) rounds z = (romixRound b n r)^[rounds] z := by
  induction rounds generalizing z with
  | zero => rfl
  | succ rounds ih =>
    have hentry : ((List.range n).map (romixX b r)).getD (integerify z r % n) [] =
        romixX b r (integerify z r % n) := by
      simp [List.getD_eq_getElem?_getD, Nat.mod_lt _ hn]
    rw [romixMix, ih, hentry, Function.iterate_succ_apply, romixRound]

theorem romix_eq (b : List Byte) (n r : Nat) : romix b n r = romixZ b n r n := by
  rw [romix, romixFill_eq]
  rcases Nat.eq_zero_or_pos n with rfl | hn
  · rfl
  · exact romixMix_eq_iterate b hn r n _

/-! ### scrypt (R215) -/

theorem scrypt_eq (p s : List Byte) (n r lanes dkLen : Nat) : scrypt p s n r lanes dkLen =
    pbkdf2 p ((List.range lanes).flatMap fun i =>
      romix (slice (pbkdf2 p s 1 (lanes * 128 * r)) (128 * r * i) (128 * r * (i + 1))) n r)
      1 dkLen := by
  rw [scrypt, chunks_eq_map_slice, List.map_map, List.flatMap_def]
  rfl

/-! ### SCRYPT_A, SCRYPT_B and SCRYPT_C (R220, R221, R222) -/

/-- A 64-byte KDF output fills MASK with its first half and KEY with its second (R216). -/
theorem writeMaskKey_fills_buffers {dk : List Byte} (hdk : dk.length = 64) (s : State) :
    ∃ m k : Bytes 32, m.toList = dk.take 32 ∧ k.toList = dk.drop 32 ∧
      writeMaskKey s dk = { s with mask := m, key := k } := by
  refine ⟨bytesOf 32 (slice dk 0 32), bytesOf 32 (slice dk 32 64), ?_, ?_, rfl⟩
  · rw [toList_bytesOf_full (by simp [hdk]), slice_zero_eq_take]
  · rw [toList_bytesOf_full (by simp [hdk]), slice_eq_drop hdk.le]

theorem execScryptA_eq_next {s : State} (h : s.vlen.toNat ≤ 256) : execScryptA s =
    .next (endCommand .none (writeMaskKey s (kdfStageA (vbufBytes s) s.chk.toList))) :=
  withVbuf_eq_next h

theorem execScryptA_eq_length {s : State} (h : 256 < s.vlen.toNat) :
    execScryptA s = .next (endCommand .length s) :=
  withVbuf_eq_length h

theorem execScryptC_eq_next {s : State} (h : s.publen.toNat = 33) : execScryptC s =
    .next (endCommand .none (writeMaskKey s (kdfStageC (passpointBytes s) (stageCSalt s)))) := by
  simp [execScryptC, publenCompressed, h]

theorem execScryptC_eq_length {s : State} (h : s.publen.toNat ≠ 33) :
    execScryptC s = .next (endCommand .length s) := by
  simp [execScryptC, publenCompressed, h]

/-- Settles O33: `scrypt_eq`, `pbkdf2_eq` and `hmac_eq` say the function, and the 64 bytes fill MASK and
KEY. -/
theorem scryptAWritesMaskAndKey : Obligations.ScryptAWritesMaskAndKey := by
  refine ⟨scrypt_eq, fun p s c dkLen _ => ⟨pbkdf2U p s, pbkdf2U_one p s,
    fun i k => pbkdf2U_succ p s i, pbkdf2_eq p s c dkLen⟩,
    fun k m => ⟨fun hle => ⟨hmacKey k, hmacKey_of_le hle, hmac_eq k m⟩, fun hlt => hmac_of_lt hlt m⟩,
    decode_encode .scryptA, fun s => ⟨fun hin => ?_, execScryptA_eq_length⟩⟩
  obtain ⟨m, k, hm, hk, hwrite⟩ :=
    writeMaskKey_fills_buffers (length_kdfStageA (vbufBytes s) s.chk.toList) s
  refine ⟨_, m, k, by rw [← vbufBytes_eq_take, kdfStageA], hm, hk, ?_⟩
  exact (execScryptA_eq_next hin).trans (by rw [hwrite]; rfl)

/-- Settles O34: the two loops are `romixX` and `romixZ`, and the 32 bytes fill SCA. -/
theorem scryptBWritesThePassfactor : Obligations.ScryptBWritesThePassfactor :=
  ⟨fun b n r => ⟨romixX b r, romixZ b n r, rfl, romixX_succ b r, rfl, romixZ_succ b n r,
    romix_eq b n r⟩, fun _ _ => integerify_eq_sum, decode_encode .scryptB,
    fun s => withVbuf_fills_buffer (fun p => length_kdfStageB p s.osalt.toList) s
      fun d => { s with sca := d }⟩

/-- Settles O35: the blocks Y are `blockMixY`, and the 64 bytes fill MASK and KEY. -/
theorem scryptCWritesMaskAndKey : Obligations.ScryptCWritesMaskAndKey := by
  refine ⟨fun b r _ _ => ⟨blockMixY b r, blockMixY_zero b r,
    fun i _ => blockMixY_succ b r i, blockMix_eq b r⟩,
    decode_encode .scryptC, fun s => ⟨fun hlen => ?_, execScryptC_eq_length⟩⟩
  obtain ⟨m, k, hm, hk, hwrite⟩ :=
    writeMaskKey_fills_buffers (length_kdfStageC (passpointBytes s) (stageCSalt s)) s
  refine ⟨_, m, k, by rw [kdfStageC, passpointBytes, slice_zero_eq_take, stageCSalt], hm, hk, ?_⟩
  exact (execScryptC_eq_next hlen).trans (by rw [hwrite]; rfl)

end Sys2Proof.Machine
end

section
/-! PROOF. SBOX and INV_SBOX, and GF(2^8) as far as MixColumns needs it (R252, R253, R261). -/

namespace Sys2Proof.Machine

/-! ### SBOX and INV_SBOX (R253, R261) -/

@[simp] theorem invSbox_sbox (x : Byte) : invSbox (sbox x) = x := by
  revert x
  decide +kernel

@[simp] theorem sbox_invSbox (x : Byte) : sbox (invSbox x) = x := by
  revert x
  decide +kernel

/-- The affine map of R253. -/
def sboxAffine (y : Byte) : Byte :=
  y ^^^ y.rotateLeft 1 ^^^ y.rotateLeft 2 ^^^ y.rotateLeft 3 ^^^ y.rotateLeft 4 ^^^ 0x63#8

/-- The inverse of the affine map. -/
def sboxAffineInv (z : Byte) : Byte :=
  z.rotateLeft 1 ^^^ z.rotateLeft 3 ^^^ z.rotateLeft 6 ^^^ 0x05#8

theorem sboxAffine_sboxAffineInv (z : Byte) : sboxAffine (sboxAffineInv z) = z := by
  revert z
  decide +kernel

theorem sboxAffineInv_sbox_zero : sboxAffineInv (sbox 0#8) = 0#8 := by decide

/-- Before its affine map SBOX takes the field inverse: checked byte by byte. -/
theorem gfMul_sboxAffineInv_sbox (x : Byte) (hx : x ≠ 0#8) : gfMul x (sboxAffineInv (sbox x)) = 1#8 := by
  revert x
  decide +kernel

/-- Settles O49: y is what the affine map takes to SBOX[x]. -/
theorem sboxIsTheAffineInverse : Obligations.SboxIsTheAffineInverse := fun x =>
  ⟨⟨sboxAffineInv (sbox x), fun hx => hx ▸ sboxAffineInv_sbox_zero, gfMul_sboxAffineInv_sbox x,
    (sboxAffine_sboxAffineInv (sbox x)).symm⟩, invSbox_sbox x, sbox_invSbox x⟩

/-! ### Multiplication in GF(2^8) (R252) -/

/-- A term that stands or not by the exclusive or of two bits. -/
theorem ite_xor_eq (p q : Bool) (c : Byte) :
    (if (p ^^ q) = true then c else 0#8) =
      (if p = true then c else 0#8) ^^^ (if q = true then c else 0#8) := by
  cases p <;> cases q <;> simp

theorem xtime_zero : xtime 0#8 = 0#8 := by decide

theorem xtime_xor (a b : Byte) : xtime (a ^^^ b) = xtime a ^^^ xtime b := by
  rw [xtime, xtime, xtime, BitVec.getLsbD_xor, BitVec.shiftLeft_xor_distrib, ite_xor_eq]
  ac_rfl

theorem gfMulBits_xor_right (n : Nat) (a b c : Byte) :
    gfMulBits n a (b ^^^ c) = gfMulBits n a b ^^^ gfMulBits n a c := by
  induction n generalizing a b c with
  | zero => simp [gfMulBits]
  | succ n ih =>
    simp only [gfMulBits, xtime_xor, ih]
    split
    · ac_rfl
    · simp

theorem gfMulBits_xor_left (n : Nat) (a b c : Byte) :
    gfMulBits n (a ^^^ b) c = gfMulBits n a c ^^^ gfMulBits n b c := by
  induction n generalizing a b c with
  | zero => simp [gfMulBits]
  | succ n ih =>
    rw [gfMulBits, BitVec.ushiftRight_xor_distrib, BitVec.getLsbD_xor, ih, ite_xor_eq]
    simp only [gfMulBits]
    ac_rfl

theorem gfMulBits_zero_left (n : Nat) (b : Byte) : gfMulBits n 0#8 b = 0#8 := by
  induction n generalizing b with
  | zero => rfl
  | succ n ih => simp [gfMulBits, ih]

theorem gfMulBits_xtime (n : Nat) (a b : Byte) :
    gfMulBits n a (xtime b) = xtime (gfMulBits n a b) := by
  induction n generalizing a b with
  | zero => exact xtime_zero.symm
  | succ n ih =>
    rw [gfMulBits, ih, gfMulBits, xtime_xor, apply_ite xtime]
    rfl

/-- The term of the last of the bits, split off. -/
theorem gfMulBits_succ_last (n : Nat) (a b : Byte) :
    gfMulBits (n + 1) a b =
      gfMulBits n a b ^^^ (if a.getLsbD n then xtime^[n] b else 0#8) := by
  induction n generalizing a b with
  | zero => simp [gfMulBits, BitVec.xor_comm]
  | succ n ih =>
    rw [gfMulBits, ih, BitVec.getLsbD_ushiftRight, Nat.add_comm 1 n, gfMulBits,
      Function.iterate_succ_apply, BitVec.xor_assoc]

/-- A factor shifted by one place, its top bit apart. -/
theorem gfMulBits_shiftLeft {n : Nat} (hn : n < 8) (a b : Byte) :
    gfMulBits (n + 1) (a <<< 1) b = gfMulBits n a (xtime b) := by
  induction n with
  | zero => simp [gfMulBits]
  | succ n ih =>
    have hbit : (a <<< 1).getLsbD (n + 1) = a.getLsbD n := by
      simp [hn, BitVec.getLsbD_eq_getElem (Nat.lt_of_succ_lt hn)]
    rw [gfMulBits_succ_last, ih (Nat.lt_of_succ_lt hn), hbit, gfMulBits_succ_last,
      Function.iterate_succ_apply]

theorem gfMul_xor_right (a b c : Byte) : gfMul a (b ^^^ c) = gfMul a b ^^^ gfMul a c :=
  gfMulBits_xor_right 8 a b c

theorem gfMul_xor_left (a b c : Byte) : gfMul (a ^^^ b) c = gfMul a c ^^^ gfMul b c :=
  gfMulBits_xor_left 8 a b c

theorem gfMul_zero_left (b : Byte) : gfMul 0#8 b = 0#8 := gfMulBits_zero_left 8 b

theorem gfMul_one_left (b : Byte) : gfMul 1#8 b = b := by
  have hone : gfMul 1#8 b = b ^^^ gfMulBits 7 0#8 (xtime b) := rfl
  rw [hone, gfMulBits_zero_left, BitVec.xor_zero]

/-- Eight times x is the reduction polynomial's low byte. -/
theorem xtime_iterate_eight (b : Byte) : xtime^[8] b = gfMul 0x1B#8 b := by
  revert b
  decide +kernel

/-- A factor x goes to either side: the top bit of `a` is reduced on the left and carried by the eighth
xtime on the right. -/
theorem gfMul_xtime_left (a b : Byte) : gfMul (xtime a) b = gfMul a (xtime b) := by
  have hshift : gfMul (a <<< 1) b = gfMulBits 7 a (xtime b) := gfMulBits_shiftLeft (by decide) a b
  have hlast : gfMul a (xtime b) =
      gfMulBits 7 a (xtime b) ^^^ (if a.getLsbD 7 then xtime^[8] b else 0#8) :=
    gfMulBits_succ_last 7 a (xtime b)
  rw [xtime, gfMul_xor_left, hshift, hlast, xtime_iterate_eight]
  split
  · rfl
  · rw [gfMul_zero_left]

theorem gfMul_gfMulBits (n : Nat) (a b c : Byte) :
    gfMul (gfMulBits n a b) c = gfMulBits n a (gfMul b c) := by
  induction n generalizing a b with
  | zero => exact gfMul_zero_left c
  | succ n ih =>
    have hx : gfMul (xtime b) c = xtime (gfMul b c) :=
      (gfMul_xtime_left b c).trans (gfMulBits_xtime 8 b c)
    rw [gfMulBits, gfMul_xor_left, ih, hx, gfMulBits]
    split
    · rfl
    · rw [gfMul_zero_left]

theorem gfMul_assoc (a b c : Byte) : gfMul (gfMul a b) c = gfMul a (gfMul b c) :=
  gfMul_gfMulBits 8 a b c

end Sys2Proof.Machine
end

section
/-! PROOF. AES-256: each step of a round has its inverse, so decryption and encryption undo each other
(R256 to R263). -/

namespace Sys2Proof.Machine

/-! ### The steps of a round and their inverses (R256 to R262) -/

/-- Two states of 16 bytes with the same entries are the same state (R251). -/
theorem aesState_ext {s t : List Byte} (hs : s.length = 16) (ht : t.length = 16)
    (h : ∀ r < 4, ∀ c < 4, aesEntry s r c = aesEntry t r c) : s = t := by
  refine List.ext_getElem (hs.trans ht.symm) fun i his hit => ?_
  have hentry := h (i % 4) (by omega) (i / 4) (by omega)
  rw [aesEntry, aesEntry, Nat.mod_add_div] at hentry
  simpa [List.getD_eq_getElem?_getD, his, hit] using hentry

@[simp] theorem length_shiftRows (s : List Byte) : (shiftRows s).length = 16 := length_aesState _

@[simp] theorem length_invShiftRows (s : List Byte) : (invShiftRows s).length = 16 :=
  length_aesState _

@[simp] theorem length_subBytes (s : List Byte) : (subBytes s).length = s.length := List.length_map _

@[simp] theorem length_invSubBytes (s : List Byte) : (invSubBytes s).length = s.length :=
  List.length_map _

@[simp] theorem length_mixWith (m : List (List Byte)) (s : List Byte) : (mixWith m s).length = 16 :=
  length_aesState _

theorem length_mixColumns (s : List Byte) : (mixColumns s).length = 16 := length_mixWith ..

theorem aesEntry_shiftRows (s : List Byte) {r c : Nat} (hr : r < 4) (hc : c < 4) :
    aesEntry (shiftRows s) r c = aesEntry s r ((c + r) % 4) :=
  aesEntry_aesState _ hr hc

theorem aesEntry_invShiftRows (s : List Byte) {r c : Nat} (hr : r < 4) (hc : c < 4) :
    aesEntry (invShiftRows s) r c = aesEntry s r ((c + 4 - r) % 4) :=
  aesEntry_aesState _ hr hc

theorem aesEntry_addRoundKey (ws : List (List Byte)) (n : Nat) (s : List Byte) {r c : Nat}
    (hr : r < 4) (hc : c < 4) :
    aesEntry (addRoundKey ws n s) r c = aesEntry s r c ^^^ (ws.getD (4 * n + c) []).getD r 0 :=
  aesEntry_aesState _ hr hc

/-- A row of four multipliers times column c of a state (R257, R262). -/
def rowTimesColumn (row : Nat → Byte) (s : List Byte) (c : Nat) : Byte :=
  gfMul (row 0) (aesEntry s 0 c) ^^^ gfMul (row 1) (aesEntry s 1 c) ^^^
    gfMul (row 2) (aesEntry s 2 c) ^^^ gfMul (row 3) (aesEntry s 3 c)

theorem aesEntry_mixWith (m : List (List Byte)) (s : List Byte) {r c : Nat} (hr : r < 4)
    (hc : c < 4) : aesEntry (mixWith m s) r c = rowTimesColumn (matrixEntry m r) s c :=
  aesEntry_aesState _ hr hc

theorem invSubBytes_subBytes (s : List Byte) : invSubBytes (subBytes s) = s := by
  simp [invSubBytes, subBytes, Function.comp_def]

theorem subBytes_invSubBytes (s : List Byte) : subBytes (invSubBytes s) = s := by
  simp [invSubBytes, subBytes, Function.comp_def]

theorem invShiftRows_shiftRows {s : List Byte} (hs : s.length = 16) :
    invShiftRows (shiftRows s) = s := by
  refine aesState_ext (length_invShiftRows _) hs fun r hr c hc => ?_
  rw [aesEntry_invShiftRows _ hr hc, aesEntry_shiftRows _ hr (Nat.mod_lt _ (by decide)),
    show ((c + 4 - r) % 4 + r) % 4 = c by omega]

theorem shiftRows_invShiftRows {s : List Byte} (hs : s.length = 16) :
    shiftRows (invShiftRows s) = s := by
  refine aesState_ext (length_shiftRows _) hs fun r hr c hc => ?_
  rw [aesEntry_shiftRows _ hr hc, aesEntry_invShiftRows _ hr (Nat.mod_lt _ (by decide)),
    show ((c + r) % 4 + 4 - r) % 4 = c by omega]

theorem addRoundKey_addRoundKey (ws : List (List Byte)) (n : Nat) {s : List Byte}
    (hs : s.length = 16) : addRoundKey ws n (addRoundKey ws n s) = s := by
  refine aesState_ext (length_addRoundKey ..) hs fun r hr c hc => ?_
  rw [aesEntry_addRoundKey _ _ _ hr hc, aesEntry_addRoundKey _ _ _ hr hc, BitVec.xor_assoc,
    BitVec.xor_self, BitVec.xor_zero]

/-! ### MixColumns and its inverse (R257, R262) -/

/-- Entry [r, j] of the product of two matrices of multipliers in GF(2^8). -/
def matrixProduct (m m' : List (List Byte)) (r j : Nat) : Byte :=
  gfMul (matrixEntry m r 0) (matrixEntry m' 0 j) ^^^ gfMul (matrixEntry m r 1) (matrixEntry m' 1 j) ^^^
    gfMul (matrixEntry m r 2) (matrixEntry m' 2 j) ^^^ gfMul (matrixEntry m r 3) (matrixEntry m' 3 j)

/-- Two matrices one after the other act on a column as their product. -/
theorem aesEntry_mixWith_mixWith (m m' : List (List Byte)) (s : List Byte) {r c : Nat} (hr : r < 4)
    (hc : c < 4) : aesEntry (mixWith m (mixWith m' s)) r c =
      rowTimesColumn (matrixProduct m m' r) s c := by
  rw [aesEntry_mixWith _ _ hr hc, rowTimesColumn]
  iterate 4 rw [aesEntry_mixWith _ _ (by decide) hc]
  simp only [rowTimesColumn, matrixProduct, gfMul_xor_left, gfMul_xor_right, gfMul_assoc]
  ac_rfl

/-- The product of two matrices of multipliers is the unit matrix. -/
def InverseMatrices (m m' : List (List Byte)) : Prop :=
  ∀ r < 4, ∀ j < 4, matrixProduct m m' r j = if r = j then 1#8 else 0#8

theorem inverseMatrices_invMix_mix : InverseMatrices invMixMatrix mixMatrix := by
  unfold InverseMatrices
  decide

theorem inverseMatrices_mix_invMix : InverseMatrices mixMatrix invMixMatrix := by
  unfold InverseMatrices
  decide

theorem mixWith_mixWith {m m' : List (List Byte)} (h : InverseMatrices m m') {s : List Byte}
    (hs : s.length = 16) : mixWith m (mixWith m' s) = s := by
  refine aesState_ext (length_mixWith ..) hs fun r hr c hc => ?_
  rw [aesEntry_mixWith_mixWith _ _ _ hr hc, rowTimesColumn, h r hr 0 (by decide),
    h r hr 1 (by decide), h r hr 2 (by decide), h r hr 3 (by decide)]
  interval_cases r <;> simp [gfMul_zero_left, gfMul_one_left]

theorem invMixColumns_mixColumns {s : List Byte} (hs : s.length = 16) :
    invMixColumns (mixColumns s) = s :=
  mixWith_mixWith inverseMatrices_invMix_mix hs

theorem mixColumns_invMixColumns {s : List Byte} (hs : s.length = 16) :
    mixColumns (invMixColumns s) = s :=
  mixWith_mixWith inverseMatrices_mix_invMix hs

/-! ### The rounds (R259, R263) -/

@[simp] theorem length_encRound (ws : List (List Byte)) (s : List Byte) (r : Nat) :
    (encRound ws s r).length = 16 := length_addRoundKey ..

@[simp] theorem length_decRound (ws : List (List Byte)) (s : List Byte) (r : Nat) :
    (decRound ws s r).length = 16 := length_mixWith ..

/-- SubBytes and ShiftRows, with which the last round begins (R259). -/
def subShift (s : List Byte) : List Byte := shiftRows (subBytes s)

/-- InvShiftRows and InvSubBytes, with which every round of decryption begins (R263). -/
def invShiftSub (s : List Byte) : List Byte := invSubBytes (invShiftRows s)

theorem length_subShift (s : List Byte) : (subShift s).length = 16 := length_shiftRows _

theorem length_invShiftSub (s : List Byte) : (invShiftSub s).length = 16 := by simp [invShiftSub]

theorem invShiftSub_subShift {s : List Byte} (hs : s.length = 16) : invShiftSub (subShift s) = s := by
  rw [invShiftSub, subShift, invShiftRows_shiftRows (by simpa using hs), invSubBytes_subBytes]

theorem subShift_invShiftSub {s : List Byte} (hs : s.length = 16) : subShift (invShiftSub s) = s := by
  rw [invShiftSub, subShift, subBytes_invSubBytes, shiftRows_invShiftRows hs]

theorem encRound_eq (ws : List (List Byte)) (s : List Byte) (r : Nat) :
    encRound ws s r = addRoundKey ws r (mixColumns (subShift s)) := rfl

theorem decRound_eq (ws : List (List Byte)) (s : List Byte) (r : Nat) :
    decRound ws s r = invMixColumns (addRoundKey ws r (invShiftSub s)) := rfl

/-- A round of decryption takes the state of the cipher's last steps one round back. -/
theorem decRound_subShift_encRound (ws : List (List Byte)) (s : List Byte) (r : Nat) :
    decRound ws (subShift (encRound ws s r)) r = subShift s := by
  rw [decRound_eq, invShiftSub_subShift (length_encRound ..), encRound_eq,
    addRoundKey_addRoundKey ws r (length_mixColumns _), invMixColumns_mixColumns (length_subShift s)]

/-- A round of encryption takes the state of the inverse cipher's last steps one round back. -/
theorem encRound_invShiftSub_decRound (ws : List (List Byte)) (s : List Byte) (r : Nat) :
    encRound ws (invShiftSub (decRound ws s r)) r = invShiftSub s := by
  rw [encRound_eq, subShift_invShiftSub (length_decRound ..), decRound_eq,
    mixColumns_invMixColumns (length_addRoundKey ..),
    addRoundKey_addRoundKey ws r (length_invShiftSub s)]

/-- Where each round g takes h of what the round f gives back to h of what f was given, the rounds g in
reverse order take back all rounds f. -/
theorem foldl_reverse_foldl {α β γ : Type} {f : α → β → α} {g : γ → β → γ} {h : α → γ}
    (hround : ∀ s r, g (h (f s r)) r = h s) (rounds : List β) (s : α) :
    rounds.reverse.foldl g (h (rounds.foldl f s)) = h s := by
  induction rounds generalizing s with
  | nil => rfl
  | cons r rounds ih =>
    rw [List.reverse_cons, List.foldl_append, List.foldl_cons (b := s), ih]
    exact hround s r

theorem aes256Enc_eq (k p : List Byte) : aes256Enc k p = addRoundKey (expandKey k) 14
    (subShift ((List.range' 1 13).foldl (encRound (expandKey k)) (addRoundKey (expandKey k) 0 p))) :=
  rfl

theorem aes256Dec_eq (k c : List Byte) : aes256Dec k c = addRoundKey (expandKey k) 0
    (invShiftSub ((List.range' 1 13).reverse.foldl (decRound (expandKey k))
      (addRoundKey (expandKey k) 14 c))) :=
  rfl

/-- Decryption undoes encryption, whatever the key (R263). -/
theorem aes256Dec_aes256Enc (k : List Byte) {p : List Byte} (hp : p.length = 16) :
    aes256Dec k (aes256Enc k p) = p := by
  have hrounds := foldl_reverse_foldl (decRound_subShift_encRound (expandKey k)) (List.range' 1 13)
    (addRoundKey (expandKey k) 0 p)
  rw [aes256Dec_eq, aes256Enc_eq, addRoundKey_addRoundKey _ _ (length_subShift _), hrounds,
    invShiftSub_subShift (length_addRoundKey ..), addRoundKey_addRoundKey _ _ hp]

/-- Encryption undoes decryption, whatever the key (R263). -/
theorem aes256Enc_aes256Dec (k : List Byte) {c : List Byte} (hc : c.length = 16) :
    aes256Enc k (aes256Dec k c) = c := by
  have hrounds := foldl_reverse_foldl (encRound_invShiftSub_decRound (expandKey k))
    (List.range' 1 13).reverse (addRoundKey (expandKey k) 14 c)
  rw [List.reverse_reverse] at hrounds
  rw [aes256Enc_eq, aes256Dec_eq, addRoundKey_addRoundKey _ _ (length_invShiftSub _), hrounds,
    subShift_invShiftSub (length_addRoundKey ..), addRoundKey_addRoundKey _ _ hc]

/-- Settles O50. -/
theorem aesDecryptionInvertsEncryption : Obligations.AesDecryptionInvertsEncryption :=
  fun k _ _ hp => ⟨aes256Dec_aes256Enc k hp, aes256Enc_aes256Dec k hp⟩

end Sys2Proof.Machine
end

section
/-! PROOF. The masked functions and the commands of the block-cipher family (R265 to R274). -/

namespace Sys2Proof.Machine

/-! ### The masked functions and their inverses (R265 to R268) -/

/-- XOR with a mask at least as long, twice, is the identity. -/
theorem xorBytes_xorBytes {p m : List Byte} (h : p.length ≤ m.length) :
    xorBytes (xorBytes p m) m = p := by
  refine List.ext_getElem (by simp [h]) fun i _ _ => ?_
  simp [xorBytes]

/-- The first slice of two joined strings is the first string. -/
theorem slice_append_left {a b : List Byte} {n : Nat} (h : a.length = n) : slice (a ++ b) 0 n = a := by
  simp [slice, ← h]

/-- The slice of two joined strings from where the second begins is the second. -/
theorem slice_append_right {a b : List Byte} {n j : Nat} (ha : a.length = n)
    (hb : n + b.length ≤ j) : slice (a ++ b) n j = b := by
  rw [slice_eq_drop (by simpa [ha] using hb), ← ha, List.drop_left]

/-- A string of n + k bytes is its slices before and after byte n. -/
theorem slice_append_slice {b : List Byte} {n j : Nat} (h : b.length = j) :
    slice b 0 n ++ slice b n j = b := by
  rw [slice_zero_eq_take, slice_eq_drop h.le, List.take_append_drop]

theorem decryptMasked_encryptMasked {p m : List Byte} (hp : p.length = 32) (hm : m.length = 32)
    (k : List Byte) : decryptMasked (encryptMasked p m k) m k = p := by
  have hq : (xorBytes p m).length = 32 := by simp [hp, hm]
  rw [encryptMasked, decryptMasked, slice_append_left (length_aes256Enc ..),
    slice_append_right (length_aes256Enc ..) (by simp), aes256Dec_aes256Enc k (by simp [hp, hm]),
    aes256Dec_aes256Enc k (by simp [hp, hm]), slice_append_slice hq, xorBytes_xorBytes (hp.trans hm.symm).le]

/-- Decryption of a masked block, unmasked, is the block. -/
theorem xorBytes_aes256Dec_aes256Enc (k : List Byte) {b m : List Byte} (hb : b.length = 16)
    (hm : m.length = 16) : xorBytes (aes256Dec k (aes256Enc k (xorBytes b m))) m = b := by
  rw [aes256Dec_aes256Enc k (by simp [hb, hm]), xorBytes_xorBytes (hb.trans hm.symm).le]

/-- Settles O52: the second ciphertext block gives back the tail of the first and the seed's last bytes;
with its tail the first gives back the seed's first 16 bytes. -/
theorem seedDecryptionInvertsItsEncryption : Obligations.SeedDecryptionInvertsItsEncryption := by
  intro s m k hs hm _
  simp only [encryptMasked24]
  generalize he : aes256Enc k (xorBytes (slice s 0 16) (slice m 0 16)) = e
  have hlen : e.length = 16 := he ▸ length_aes256Enc ..
  have hhead : (slice e 0 8).length = 8 := by simp [hlen]
  have htail : (slice e 8 16).length = 8 := by simp [hlen]
  rw [decryptMasked24, slice_append_right hhead (by simp), slice_append_left hhead,
    xorBytes_aes256Dec_aes256Enc k (by simp [hlen, hs]) (by simp [hm])]
  simp only [slice_append_left htail]
  rw [slice_append_slice hlen, slice_append_right htail (by simp [hs]), ← he,
    xorBytes_aes256Dec_aes256Enc k (by simp [hs]) (by simp [hm]), slice_append_slice hs]

/-! ### The commands (R270 to R274) -/

/-- A cipher command with output l completes, its output at the start of DOUT and the rest of DOUT as
before. -/
theorem complete_writeDout_fills {l : List Byte} (h : l.length ≤ 32) (s : State) :
    ∃ d : Bytes 32, d.toList = l ++ s.dout.toList.drop l.length ∧
      complete (writeDout s l) = .next (endCommand .none { s with dout := d }) :=
  ⟨overwrite s.dout l, toList_overwrite s.dout h, rfl⟩

/-- A command whose output is one block of DIN[0:16) under KEY. -/
theorem complete_writeDout_block {cipher : List Byte → List Byte → List Byte}
    (hcipher : ∀ k b, (cipher k b).length = 16) (s : State) :
    ∃ d : Bytes 32,
      d.toList = cipher s.key.toList (s.din.toList.take 16) ++ s.dout.toList.drop 16 ∧
      complete (writeDout s (cipher s.key.toList (dinBlock s))) =
        .next (endCommand .none { s with dout := d }) := by
  have hlen := hcipher s.key.toList (dinBlock s)
  obtain ⟨d, hd, hnext⟩ := complete_writeDout_fills (hlen.le.trans (by decide)) s
  exact ⟨d, by rw [hd, hlen, dinBlock, slice_zero_eq_take], hnext⟩

/-- Settles O36. -/
theorem aesEncWritesOneBlock : Obligations.AesEncWritesOneBlock :=
  ⟨decode_encode .aesEnc, complete_writeDout_block length_aes256Enc⟩

/-- Settles O37. -/
theorem aesDecWritesOneBlock : Obligations.AesDecWritesOneBlock :=
  ⟨decode_encode .aesDec, complete_writeDout_block length_aes256Dec⟩

/-- A cipher command with 32 bytes of output completes with DOUT the output. -/
theorem complete_writeDout_full {l : List Byte} (h : l.length = 32) (s : State) :
    ∃ d : Bytes 32, d.toList = l ∧
      complete (writeDout s l) = .next (endCommand .none { s with dout := d }) :=
  ⟨overwrite s.dout l, toList_overwrite_full s.dout h, rfl⟩

/-- Settles O38. -/
theorem encMasked32EncryptsBothHalves : Obligations.EncMasked32EncryptsBothHalves := by
  refine ⟨decode_encode .encMasked32, fun s => ?_⟩
  obtain ⟨d, hd, hnext⟩ := complete_writeDout_full
    (length_encryptMasked s.din.toList s.mask.toList s.key.toList) s
  refine ⟨d, ?_, hnext⟩
  rw [hd, encryptMasked, slice_zero_eq_take, slice_eq_drop (by simp)]

/-- Settles O39. -/
theorem decMasked32DecryptsBothHalves : Obligations.DecMasked32DecryptsBothHalves := by
  refine ⟨decode_encode .decMasked32, fun s => ?_⟩
  obtain ⟨d, hd, hnext⟩ := complete_writeDout_full
    (length_decryptMasked (c := s.din.toList) (k := s.key.toList) s.mask.length_eq) s
  refine ⟨d, ?_, hnext⟩
  rw [hd, decryptMasked, slice_zero_eq_take, slice_eq_drop (by simp)]

/-- Settles O40: X and Y are the two decryptions of DecryptMasked24. -/
theorem decMasked24RecoversTheSeed : Obligations.DecMasked24RecoversTheSeed := by
  refine ⟨decode_encode .decMasked24, fun s => ?_⟩
  have hlen := length_decryptMasked24 (c := dinCipher24 s) (k := s.key.toList) s.mask.length_eq
  obtain ⟨d, hd, hnext⟩ := complete_writeDout_fills (hlen.le.trans (by decide)) s
  refine ⟨_, _, d, rfl, rfl, ?_, hnext⟩
  rw [hd, hlen]
  simp only [decryptMasked24, dinCipher24, slice_zero_eq_take]
  rw [slice_eq_drop (b := s.din.toList.take 24) (by simp), slice_eq_drop (b := s.mask.toList) (by simp),
    List.take_take, slice_eq_drop (by simp)]
  rfl

theorem dout_of_complete_writeDout {l : List Byte} {s t : State} (hl : l.length = 32)
    (h : complete (writeDout s l) = .next t) : t.dout.toList = l := by
  cases h
  exact toList_overwrite_full s.dout hl

/-- The cipher commands write DOUT alone of the buffers: MASK and KEY stay. -/
theorem maskKey_of_complete_writeDout {l : List Byte} {s t : State}
    (h : complete (writeDout s l) = .next t) : t.mask = s.mask ∧ t.key = s.key := by
  cases h
  exact ⟨rfl, rfl⟩

/-- Settles O51: DOUT after the first command is EncryptMasked of DIN, and DOUT after the second is
DecryptMasked of that under the same MASK and KEY. -/
theorem maskedDecryptionRestoresThePlaintext : Obligations.MaskedDecryptionRestoresThePlaintext := by
  intro s t u henc hdec
  obtain ⟨hmask, hkey⟩ := maskKey_of_complete_writeDout henc
  have hcipher := dout_of_complete_writeDout (length_encryptMasked ..) henc
  have hplain : u.dout.toList = decryptMasked t.dout.toList t.mask.toList t.key.toList :=
    dout_of_complete_writeDout (length_decryptMasked t.mask.length_eq) hdec
  refine bytes_ext ?_
  rw [hplain, hcipher, hmask, hkey]
  exact decryptMasked_encryptMasked s.din.length_eq s.mask.length_eq s.key.toList

end Sys2Proof.Machine
end

section
/-! PROOF. The field prime p and the group order n are prime (R320, R321): Lucas's test on the prime
factors of p - 1 and n - 1, and of the large ones among these in turn. -/

namespace Sys2Proof.Machine

/-! ### Lucas's test -/

/-- Lucas's test of m to base a, for qs the prime factors of m - 1 with their multiplicity: a has order
m - 1 modulo m. -/
def lucasTest (m a : Nat) (qs : List Nat) : Bool :=
  m < 2 ^ 256 && qs.prod == m - 1 && powModBits m 256 a (m - 1) == 1 % m &&
    qs.all fun q => powModBits m 256 a ((m - 1) / q) != 1 % m

theorem natCast_pow_eq_one_iff (m a e : Nat) : (a : ZMod m) ^ e = 1 ↔ a ^ e % m = 1 % m := by
  rw [← Nat.cast_pow, ← Nat.cast_one, ZMod.natCast_eq_natCast_iff']

/-- What the test computes are the powers of a (R322's exponentiation), and every prime factor of m - 1
is listed. -/
theorem prime_of_lucasTest {m : Nat} (a : Nat) (small large : List Nat)
    (hsmall : ∀ q ∈ small, q.Prime) (hlarge : ∀ q ∈ large, q.Prime)
    (h : lucasTest m a (small ++ large) = true) : m.Prime := by
  have hqs : ∀ q ∈ small ++ large, q.Prime := fun q hq =>
    (List.mem_append.mp hq).elim (hsmall q) (hlarge q)
  simp only [lucasTest, Bool.and_eq_true, decide_eq_true_eq, beq_iff_eq, List.all_eq_true,
    bne_iff_ne] at h
  obtain ⟨⟨⟨hm, hprod⟩, hone⟩, hne⟩ := h
  refine lucas_primality m a ?_ fun q hq hdvd => ?_
  · rwa [natCast_pow_eq_one_iff, ← powModBits_eq m 256 a (m - 1) (by omega)]
  · have hmem : q ∈ small ++ large :=
      mem_list_primes_of_dvd_prod hq.prime (fun r hr => (hqs r hr).prime) (hprod ▸ hdvd)
    have hlt : (m - 1) / q < 2 ^ 256 := (Nat.div_le_self ..).trans_lt (by omega)
    rw [Ne, natCast_pow_eq_one_iff, ← powModBits_eq m 256 a _ hlt]
    exact hne q hmem

/-! ### The factors of p - 1

The first list of each proof holds the factors small enough for trial division, the second the ones
proved prime before. -/

theorem prime_173378833005251801 : Nat.Prime 173378833005251801 :=
  prime_of_lucasTest 6 [2, 2, 2, 5, 5, 2621, 24809, 13331831] []
    (by norm_num) (by simp) (by decide +kernel)

theorem prime_22149492674086928081353 : Nat.Prime 22149492674086928081353 :=
  prime_of_lucasTest 5 [2, 2, 2, 3, 5323] [173378833005251801]
    (by norm_num) (by simp [prime_173378833005251801]) (by decide +kernel)

theorem prime_132896956044521568488119 : Nat.Prime 132896956044521568488119 :=
  prime_of_lucasTest 6 [2, 3] [22149492674086928081353]
    (by norm_num) (by simp [prime_22149492674086928081353]) (by decide +kernel)

theorem prime_255515944373312847190720520512484175977 :
    Nat.Prime 255515944373312847190720520512484175977 :=
  prime_of_lucasTest 3 [2, 2, 2, 7, 7, 11, 1627, 2657, 4423, 41201, 96557, 7240687, 107590001] []
    (by norm_num) (by simp) (by decide +kernel)

/-- The factor of p - 1 next to 2, 3, 7 and 13441. -/
theorem prime_largestFactor_curveP_pred :
    Nat.Prime 205115282021455665897114700593932402728804164701536103180137503955397371 :=
  prime_of_lucasTest 10 [2, 3, 5, 29, 29, 31, 7723]
    [132896956044521568488119, 255515944373312847190720520512484175977]
    (by norm_num)
    (by simp [prime_132896956044521568488119, prime_255515944373312847190720520512484175977])
    (by decide +kernel)

/-- The field prime is prime (R320). -/
theorem prime_curveP : curveP.Prime :=
  prime_of_lucasTest 3 [2, 3, 7, 13441]
    [205115282021455665897114700593932402728804164701536103180137503955397371]
    (by norm_num) (by simp [prime_largestFactor_curveP_pred]) (by decide +kernel)

/-! ### The factors of n - 1 -/

theorem prime_107361793816595537 : Nat.Prime 107361793816595537 :=
  prime_of_lucasTest 3 [2, 2, 2, 2, 16699, 85831, 4681609] []
    (by norm_num) (by simp) (by decide +kernel)

theorem prime_174723607534414371449 : Nat.Prime 174723607534414371449 :=
  prime_of_lucasTest 3 [2, 2, 2, 17, 59, 4051, 120233, 44706919] []
    (by norm_num) (by simp) (by decide +kernel)

theorem prime_297159362677 : Nat.Prime 297159362677 :=
  prime_of_lucasTest 2 [2, 2, 3, 3, 11, 461, 1627771] []
    (by norm_num) (by simp) (by decide +kernel)

theorem prime_545358713 : Nat.Prime 545358713 :=
  prime_of_lucasTest 5 [2, 2, 2, 41, 59, 28181] []
    (by norm_num) (by simp) (by decide +kernel)

theorem prime_29047611873442575647497758179 : Nat.Prime 29047611873442575647497758179 :=
  prime_of_lucasTest 2 [2, 293, 305873] [545358713, 297159362677]
    (by norm_num) (by simp [prime_545358713, prime_297159362677]) (by decide +kernel)

theorem prime_341948486974166000522343609283189 : Nat.Prime 341948486974166000522343609283189 :=
  prime_of_lucasTest 2 [2, 2, 3, 3, 3, 109] [29047611873442575647497758179]
    (by norm_num) (by simp [prime_29047611873442575647497758179]) (by decide +kernel)

/-- The group order is prime (R321). -/
theorem prime_curveN : curveN.Prime :=
  prime_of_lucasTest 7 [2, 2, 2, 2, 2, 2, 3, 149, 631]
    [107361793816595537, 174723607534414371449, 341948486974166000522343609283189]
    (by norm_num)
    (by simp [prime_107361793816595537, prime_174723607534414371449,
      prime_341948486974166000522343609283189])
    (by decide +kernel)

end Sys2Proof.Machine
end

section
/-! PROOF. The model's arithmetic on E ∪ {O} is Mathlib's on the points of y^2 = x^3 + 7 over ZMod p
(R320 to R323). Mathlib's group law then gives the method's freedom (double and add is repeated addition),
and n·G = O with n prime gives that no smaller multiple of G is O. -/

namespace Sys2Proof.Machine

/-! ### The field (R320, R322) -/

theorem curveP_pos : 0 < curveP := by decide

theorem fieldSub_lt (a b : Nat) : fieldSub a b < curveP := Nat.mod_lt _ curveP_pos

@[simp] theorem natCast_fieldSub (a b : Nat) :
    (fieldSub a b : ZMod curveP) = (a : ZMod curveP) - b := by
  rw [fieldSub, ZMod.natCast_mod, Nat.cast_add, Nat.cast_sub (Nat.mod_lt b curveP_pos).le,
    ZMod.natCast_self, ZMod.natCast_mod, zero_sub, sub_eq_add_neg]

/-- A reduced integer is the representative of its class. -/
theorem eq_val_of_natCast_eq {a : Nat} {x : ZMod curveP} (ha : a < curveP)
    (h : (a : ZMod curveP) = x) : a = x.val := by
  rw [← h, ZMod.val_cast_of_lt ha]

/-! ### The group order, evaluated (R321) -/

theorem curveN_lt : curveN < 2 ^ 256 := by decide

/-- n·G = O, by the machine's own double and add. -/
theorem baseMul_curveN : baseMul curveN = .infinity := by decide +kernel

section
variable [Fact curveP.Prime]

/-! ### The inverse (R322) -/

/-- z^(p-2) is the inverse of z, by Fermat's little theorem (R322). -/
@[simp] theorem natCast_fieldInv (z : Nat) : (fieldInv z : ZMod curveP) = (z : ZMod curveP)⁻¹ := by
  rw [fieldInv_eq, ZMod.natCast_mod, Nat.cast_pow]
  by_cases hz : (z : ZMod curveP) = 0
  · rw [hz, inv_zero, zero_pow (by decide)]
  · refine eq_inv_of_mul_eq_one_left ?_
    rw [← pow_succ, show curveP - 2 + 1 = curveP - 1 by decide, ZMod.pow_card_sub_one_eq_one hz]

/-! ### The curve and its points -/

/-- y^2 = x^3 + 7 over the field of p elements (R320). -/
def curve : WeierstrassCurve.Affine (ZMod curveP) := ⟨0, 0, 0, 0, 7⟩

theorem curve_equation_iff (x y : ZMod curveP) : curve.Equation x y ↔ y ^ 2 = x ^ 3 + 7 := by
  simp [WeierstrassCurve.Affine.equation_iff, curve]

@[simp] theorem curve_negY (x y : ZMod curveP) : curve.negY x y = -y := by
  simp [WeierstrassCurve.Affine.negY, curve]

theorem curve_addX (x₁ x₂ l : ZMod curveP) : curve.addX x₁ x₂ l = l * l - x₁ - x₂ := by
  simp [curve, sq]

theorem curve_addY (x₁ x₂ y₁ l : ZMod curveP) :
    curve.addY x₁ x₂ y₁ l = l * (x₁ - curve.addX x₁ x₂ l) - y₁ := by
  rw [WeierstrassCurve.Affine.addY, curve_negY, WeierstrassCurve.Affine.negAddY]
  ring

/-- The model's point for a point of the curve: the coordinates' representatives in [0, p) (R320). -/
def ofCurve : curve.Point → Point
  | .zero => .infinity
  | .some x y _ => .affine x.val y.val

@[simp] theorem ofCurve_zero : ofCurve 0 = .infinity := rfl

@[simp] theorem ofCurve_some {x y : ZMod curveP} (h : curve.Nonsingular x y) :
    ofCurve (.some x y h) = .affine x.val y.val := rfl

theorem ofCurve_eq_infinity_iff (P : curve.Point) : ofCurve P = .infinity ↔ P = 0 := by
  cases P with
  | zero => exact iff_of_true rfl rfl
  | some x y h => exact iff_of_false (by simp) (WeierstrassCurve.Affine.Point.some_ne_zero h)

theorem onCurve_ofCurve (P : curve.Point) : onCurve (ofCurve P) = true := by
  cases P with
  | zero => rfl
  | some x y h =>
    have heq : y.val * y.val % curveP = (x.val * x.val * x.val + 7) % curveP := by
      rw [← ZMod.natCast_eq_natCast_iff']
      have := (curve_equation_iff x y).mp h.1
      simp only [Nat.cast_add, Nat.cast_mul, ZMod.natCast_zmod_val, Nat.cast_ofNat]
      linear_combination this
    simp [onCurve, ZMod.val_lt, heq]

/-! ### The group law (R322) -/

/-- The model's test for two points that are negatives of each other. -/
theorem val_opposite_iff (x₁ y₁ x₂ y₂ : ZMod curveP) :
    (x₁.val = x₂.val ∧ y₂.val = (curveP - y₁.val) % curveP) ↔ (x₁ = x₂ ∧ y₁ = curve.negY x₂ y₂) := by
  rw [← ZMod.neg_val', (ZMod.val_injective curveP).eq_iff, (ZMod.val_injective curveP).eq_iff,
    curve_negY, eq_comm (a := y₂), neg_eq_iff_eq_neg]

/-- The chord's and the tangent's slope are Mathlib's, where the sum is not O. -/
theorem natCast_slope {x₁ y₁ x₂ y₂ : ZMod curveP} (h : ¬(x₁ = x₂ ∧ y₁ = curve.negY x₂ y₂)) :
    (slope x₁.val y₁.val x₂.val y₂.val : ZMod curveP) = curve.slope x₁ x₂ y₁ y₂ := by
  simp only [slope, (ZMod.val_injective curveP).eq_iff]
  split
  · rename_i hx
    rw [WeierstrassCurve.Affine.slope_of_Y_ne hx fun hy => h ⟨hx, hy⟩, curve_negY, curve]
    simp only [ZMod.natCast_mod, Nat.cast_mul, Nat.cast_ofNat, natCast_fieldInv,
      ZMod.natCast_zmod_val, div_eq_mul_inv]
    ring
  · rename_i hx
    rw [WeierstrassCurve.Affine.slope_of_X_ne hx, ← neg_div_neg_eq, neg_sub, neg_sub]
    simp only [ZMod.natCast_mod, Nat.cast_mul, natCast_fieldInv, natCast_fieldSub,
      ZMod.natCast_zmod_val, div_eq_mul_inv]

/-- The model's group law is Mathlib's. -/
theorem pointAdd_ofCurve (P Q : curve.Point) :
    pointAdd (ofCurve P) (ofCurve Q) = ofCurve (P + Q) := by
  cases P with
  | zero => exact congrArg ofCurve (zero_add Q).symm
  | some x₁ y₁ h₁ =>
    cases Q with
    | zero => exact congrArg ofCurve (add_zero (WeierstrassCurve.Affine.Point.some x₁ y₁ h₁)).symm
    | some x₂ y₂ h₂ =>
      simp only [ofCurve_some, pointAdd, val_opposite_iff]
      split
      · rename_i hopp
        rw [WeierstrassCurve.Affine.Point.add_of_Y_eq hopp.1 hopp.2, ofCurve_zero]
      · rename_i hopp
        rw [WeierstrassCurve.Affine.Point.add_some hopp, ofCurve_some]
        congr 1
        · refine eq_val_of_natCast_eq (fieldSub_lt ..) ?_
          rw [natCast_fieldSub, natCast_fieldSub, Nat.cast_mul, natCast_slope hopp,
            ZMod.natCast_zmod_val, ZMod.natCast_zmod_val, curve_addX]
        · refine eq_val_of_natCast_eq (fieldSub_lt ..) ?_
          simp only [curve_addY, curve_addX, natCast_fieldSub, Nat.cast_mul, natCast_slope hopp,
            ZMod.natCast_zmod_val]

/-! ### Scalar multiplication (R323) -/

theorem pointMulRepeated_ofCurve (P : curve.Point) (k : Nat) :
    pointMulRepeated (ofCurve P) k = ofCurve (k • P) := by
  induction k with
  | zero => rw [zero_nsmul]; rfl
  | succ k ih => rw [pointMulRepeated, ih, pointAdd_ofCurve, succ_nsmul]

/-- Double and add: k·P is (k / 2)·(P + P), and P more where k is odd. -/
theorem pointMulBits_ofCurve {bits k : Nat} (hk : k < 2 ^ bits) (P : curve.Point) :
    pointMulBits bits k (ofCurve P) = ofCurve (k • P) := by
  induction bits generalizing k P with
  | zero =>
    rw [Nat.lt_one_iff.mp hk, zero_nsmul]
    rfl
  | succ bits ih =>
    have hhalf : k / 2 < 2 ^ bits := by rw [pow_succ] at hk; omega
    have hdouble : (k / 2) • (P + P) = (2 * (k / 2)) • P := by rw [← two_nsmul, mul_nsmul]
    simp only [pointMulBits, pointAdd_ofCurve, ih hhalf, hdouble]
    split
    · rw [← succ_nsmul', show 2 * (k / 2) + 1 = k by omega]
    · rw [show 2 * (k / 2) = k by omega]

/-! ### The base point (R321) -/

theorem curve_nonsingular_base : curve.Nonsingular (baseX : ZMod curveP) (baseY : ZMod curveP) := by
  rw [WeierstrassCurve.Affine.nonsingular_iff, curve_equation_iff]
  constructor
  · have heq : ((baseY ^ 2 : Nat) : ZMod curveP) = (baseX ^ 3 + 7 : Nat) :=
      (ZMod.natCast_eq_natCast_iff' ..).mpr (by decide +kernel)
    exact_mod_cast heq
  · refine .inr fun h => ?_
    have hself := h.trans (curve_negY (baseX : ZMod curveP) baseY)
    have hzero : ((2 * baseY : Nat) : ZMod curveP) = 0 := by
      push_cast
      linear_combination hself
    rw [ZMod.natCast_eq_zero_iff] at hzero
    exact absurd hzero (by decide +kernel)

/-- G as a point of Mathlib's curve. -/
def baseOnCurve : curve.Point := .some baseX baseY curve_nonsingular_base

theorem ofCurve_baseOnCurve : ofCurve baseOnCurve = basePoint := by
  rw [baseOnCurve, ofCurve_some, ZMod.val_cast_of_lt (by decide), ZMod.val_cast_of_lt (by decide),
    basePoint]

theorem baseMul_eq_ofCurve {k : Nat} (hk : k < 2 ^ 256) : baseMul k = ofCurve (k • baseOnCurve) := by
  rw [baseMul, ← ofCurve_baseOnCurve, pointMulBits_ofCurve hk]

/-- G has order n, since n·G = O, n is prime and G is not O (R321). -/
theorem addOrderOf_baseOnCurve : addOrderOf baseOnCurve = curveN := by
  have : Fact curveN.Prime := ⟨prime_curveN⟩
  refine addOrderOf_eq_prime ?_ (WeierstrassCurve.Affine.Point.some_ne_zero _)
  rw [← ofCurve_eq_infinity_iff, ← baseMul_eq_ofCurve curveN_lt, baseMul_curveN]

theorem nsmul_baseOnCurve_ne_zero {k : Nat} (hpos : 1 ≤ k) (hlt : k < curveN) :
    k • baseOnCurve ≠ 0 :=
  nsmul_ne_zero_of_lt_addOrderOf (by omega) (addOrderOf_baseOnCurve ▸ hlt)

end

/-- Settles O53: both sides are the multiple of G on Mathlib's curve. -/
theorem scalarMultiplicationIsRepeatedAddition : Obligations.ScalarMultiplicationIsRepeatedAddition := by
  intro k hk
  have : Fact curveP.Prime := ⟨prime_curveP⟩
  rw [baseMul_eq_ofCurve hk, ← pointMulRepeated_ofCurve, ofCurve_baseOnCurve]

/-- Settles O54: k·G is a point of Mathlib's curve, and not O below G's order. -/
theorem scalarsInRangeGiveCurvePoints : Obligations.ScalarsInRangeGiveCurvePoints := by
  intro k hpos hlt
  have : Fact curveP.Prime := ⟨prime_curveP⟩
  have hmul := baseMul_eq_ofCurve (hlt.trans curveN_lt)
  have hon := onCurve_ofCurve (k • baseOnCurve)
  have hne := nsmul_baseOnCurve_ne_zero hpos hlt
  rw [← hmul] at hon
  rw [Ne, ← ofCurve_eq_infinity_iff, ← hmul] at hne
  cases hpoint : baseMul k with
  | infinity => exact absurd hpoint hne
  | affine x y => exact ⟨x, y, rfl, hpoint ▸ hon⟩

end Sys2Proof.Machine
end

section
/-! PROOF. The SEC 1 forms of a point and the commands of the elliptic-curve family (R324, R325, R330 to
R332). -/

namespace Sys2Proof.Machine

/-! ### The two forms of a point (R324) -/

theorem serializeUncompressed_affine (x y : Nat) :
    serializeUncompressed (.affine x y) = 0x04#8 :: natBe 32 x ++ natBe 32 y := rfl

theorem natBe_one (x : Nat) : natBe 1 x = [BitVec.ofNat 8 x] := rfl

/-- The leading byte 2 + y mod 2 is 02 for even y and 03 for odd y. -/
theorem leadingByte_eq_ite (y : Nat) :
    BitVec.ofNat 8 (0x02 + y % 2) = if y % 2 = 0 then 0x02#8 else 0x03#8 := by
  rcases Nat.mod_two_eq_zero_or_one y with heven | hodd
  · simp [heven]
  · simp [hodd]

theorem serializeCompressed_affine (x y : Nat) : serializeCompressed (.affine x y) =
    (if y % 2 = 0 then 0x02#8 else 0x03#8) :: natBe 32 x := by
  rw [serializeCompressed, natBe_one, leadingByte_eq_ite, List.singleton_append]

/-- A 256-bit integer is the value of its 32 bytes (R15). -/
theorem beNat_natBe_32 {x : Nat} (h : x < 2 ^ 256) : beNat (natBe 32 x) = x :=
  beNat_natBe (h.trans_eq (by norm_num))

/-- Settles O55, with the big-endian bytes of the coordinates. -/
theorem serializedPointsHaveTheirForm : Obligations.SerializedPointsHaveTheirForm :=
  fun x y hx hy =>
    ⟨⟨natBe 32 x, length_natBe .., beNat_natBe_32 hx, serializeCompressed_affine x y⟩,
      natBe 32 x, natBe 32 y, length_natBe .., length_natBe .., beNat_natBe_32 hx, beNat_natBe_32 hy,
      serializeUncompressed_affine x y⟩

/-! ### EC_BASEMUL (R330) -/

theorem ecBasemul_eq_next {s : State} (hpos : 1 ≤ scaNat s) (hlt : scaNat s < curveN)
    (ser : Point → List Byte) (len : BitVec 7) :
    ecBasemul ser len s = .next (endCommand .none
      { s with pub := bytesOf 65 (ser (baseMul (scaNat s))), publen := len }) := by
  rw [ecBasemul, if_pos ((scalarInRange_iff _).mpr ⟨hpos, hlt⟩), complete_eq]

theorem ecBasemul_eq_scalar {s : State} (h : scaNat s = 0 ∨ curveN ≤ scaNat s)
    (ser : Point → List Byte) (len : BitVec 7) :
    ecBasemul ser len s = .next (endCommand .scalar s) := by
  have hout : ¬scalarInRange (scaNat s) = true := by
    rw [scalarInRange_iff]
    omega
  rw [ecBasemul, if_neg hout, raiseErr_eq]

/-- PUB after the uncompressed form: all of its 65 bytes. -/
theorem toList_bytesOf_serializeUncompressed (x y : Nat) :
    (bytesOf 65 (serializeUncompressed (.affine x y))).toList =
      0x04#8 :: natBe 32 x ++ natBe 32 y :=
  toList_bytesOf_full (length_serializeUncompressed x y)

/-- PUB after the compressed form: its 33 bytes and 32 zeros. -/
theorem toList_bytesOf_serializeCompressed (x y : Nat) :
    (bytesOf 65 (serializeCompressed (.affine x y))).toList =
      natBe 1 (2 + y % 2) ++ natBe 32 x ++ List.replicate 32 0#8 := by
  have hlen := length_serializeCompressed x y
  rw [toList_bytesOf (hlen.le.trans (by decide)), hlen]
  rfl

/-- Settles O41. -/
theorem ecBasemulUWritesTheUncompressedPoint : Obligations.EcBasemulUWritesTheUncompressedPoint := by
  refine ⟨decode_encode .ecBasemulU, fun s => ⟨fun hpos hlt => ⟨_, fun x y hpoint => ?_,
    ecBasemul_eq_next hpos hlt serializeUncompressed _⟩, fun hout => ecBasemul_eq_scalar hout _ _⟩⟩
  rw [scaNat, hpoint, toList_bytesOf_serializeUncompressed]

/-- Settles O42. -/
theorem ecBasemulCWritesTheCompressedPoint : Obligations.EcBasemulCWritesTheCompressedPoint := by
  refine ⟨decode_encode .ecBasemulC, fun s => ⟨fun hpos hlt => ⟨_, fun x y hpoint => ?_,
    ecBasemul_eq_next hpos hlt serializeCompressed _⟩, fun hout => ecBasemul_eq_scalar hout _ _⟩⟩
  rw [scaNat, hpoint, toList_bytesOf_serializeCompressed]

/-! ### MODMUL and FACTORB (R331, R332) -/

theorem mulModN_lt (a b : Nat) : mulModN a b < 2 ^ 256 :=
  (Nat.mod_lt _ (by decide)).trans curveN_lt

/-- Settles O43: a value below n has its 32 bytes. -/
theorem modmulWritesTheProduct : Obligations.ModmulWritesTheProduct := by
  refine ⟨decode_encode .modmul, fun s => ⟨_, ?_, complete_eq _⟩⟩
  rw [toList_bytesOf_full (length_natBe ..), beNat_natBe_32 (mulModN_lt ..), mulModN, scaNat, scbNat]

/-- Settles O44. -/
theorem factorbWritesTheBlindingFactor : Obligations.FactorbWritesTheBlindingFactor := by
  refine ⟨decode_encode .factorb, fun s => ⟨_, ?_, complete_eq _⟩⟩
  rw [toList_bytesOf_full (length_sha256d _), sha256d, seedBytes, slice_zero_eq_take]

end Sys2Proof.Machine
end

section
/-! PROOF. The control family: the issue of a command word, the engine's turn, the end of a command and
ZEROIZE (R380 to R384, R390). -/

namespace Sys2Proof.Machine

/-! ### Issue (R380, R382) -/

/-- Settles O25: while idle a write to CMD is the issue of its word. -/
theorem issueAcceptsExactlyTheLegalWords : Obligations.IssueAcceptsExactlyTheLegalWords := by
  intro s w hidle
  rw [memWrite_cmd hidle]
  refine ⟨fun hlegal => ?_, fun hillegal => issue_eq_illegal hillegal⟩
  obtain ⟨i, hi⟩ := Option.isSome_iff_exists.mp hlegal
  exact issue_eq_accept hi

/-- Settles O26: by O25 the write leaves BUSY at 0, so the engine's turn finds nothing to do. -/
theorem illegalWordsEndAtOnce : Obligations.IllegalWordsEndAtOnce := by
  intro s w hidle hillegal
  obtain ⟨-, hend⟩ := issueAcceptsExactlyTheLegalWords s w hidle
  rw [hend hillegal]
  exact ⟨rfl, rfl, hidle, engineTurn_idle hidle, id⟩

/-! ### The engine's turn (R383) -/

/-- The engine's event first in the queue is taken off, and the engine has its turn. -/
theorem step_engine_of_busy {s : State} {i : Instr} {rest : List Input} (hbusy : s.busy = true)
    (hpend : decode s.pend = some i) (hin : s.inputs = .engine :: rest) :
    step s = exec i { s with inputs := rest } := by
  rw [step_cons hin, react_engine]
  exact engineTurn_busy hbusy hpend

theorem step_nil_of_busy {s : State} {i : Instr} (hbusy : s.busy = true)
    (hpend : decode s.pend = some i) (hin : s.inputs = []) : step s = exec i s := by
  rw [step_nil hin, engineTurn_busy hbusy hpend]

/-- A placed word has the engine's turn next, whatever waits (log 4). -/
theorem step_withPending {w : Word} {i : Instr} (hw : decode w = some i) (s : State) :
    step (withPending s w) = exec i { s with pend := w, busy := true } := by
  have hpend : decode (withPending s w).pend = some i := by rw [withPending_pend, hw]
  cases hin : s.inputs with
  | nil =>
    rw [step_nil_of_busy (withPending_busy s w) hpend (by simp [hin])]
    simp [withPending, hin]
  | cons e rest =>
    rw [step_engine_of_busy (withPending_busy s w) hpend (rest := s.inputs) (by simp [hin])]
    simp [hin]

theorem withFetchWord_toNat (s : State) (w : Word) : s.withFetchWord 32 w.toNat = withPending s w := by
  rw [State.withFetchWord, Nat.mod_eq_of_lt w.isLt, BitVec.ofNat_toNat, BitVec.setWidth_eq]

/-- Settles O6. -/
theorem stepRunsThePendingCommand : Obligations.StepRunsThePendingCommand := by
  refine ⟨fun s i hbusy hpend => ⟨step_nil_of_busy hbusy hpend,
    fun rest => step_engine_of_busy hbusy hpend⟩, fun s i => ?_⟩
  rw [withFetchWord_toNat, step_withPending (decode_encode i)]

/-! ### Completion (R383, R384) -/

/-- Settles O27: each way a completion can end is `endCommand` of a state with the same control registers. -/
theorem completionsEndTheCommand : Obligations.CompletionsEndTheCommand := by
  intro i s t h
  rcases exec_endings h with ⟨u, hkeeps, rfl⟩ | ⟨-, rfl⟩ | ⟨-, rfl⟩
  · exact ⟨rfl, rfl, memory_read_zeroed, by simp, hkeeps.wbusy, hkeeps.lastcmd, hkeeps.doneIe,
      hkeeps.pend, hkeeps.inputs, hkeeps.rdata⟩
  · exact ⟨rfl, rfl, memory_read_zeroed, by simp, rfl, rfl, rfl, rfl, rfl, rfl⟩
  · exact ⟨rfl, rfl, memory_read_zeroed, by simp, rfl, rfl, rfl, rfl, rfl, rfl⟩

/-! ### ZEROIZE (R390) -/

theorem bufferBytes_clearBuffers (s : State) (b : Buffer) :
    bufferBytes (clearBuffers s) b = List.replicate (bufferLen b) 0#8 := by
  cases b <;> rfl

@[simp] theorem buffersZero_endCommand (c : ErrCode) (s : State) :
    buffersZero (endCommand c s) = buffersZero s := by
  simp [buffersZero]

@[simp] theorem buffersZero_clearBuffers (s : State) : buffersZero (clearBuffers s) = true := by
  simp [buffersZero, bufferBytes_clearBuffers]

/-- Settles O45. -/
theorem zeroizeClearsEveryBuffer : Obligations.ZeroizeClearsEveryBuffer :=
  ⟨decode_encode .zeroize, fun s => ⟨endCommand .none (clearBuffers s), complete_eq _, by simp, rfl, rfl,
    rfl, rfl, rfl, rfl, rfl, rfl, rfl, memory_read_zeroed⟩⟩

end Sys2Proof.Machine
end

section
/-! PROOF. A command's result is a function of what R51 lists as read for it (R51, R385). -/

namespace Sys2Proof.Machine

/-! ### What two completions share -/

/-- Two states hold the same in all that R51 lists as written by command i. -/
def AgreeOnWritten (i : Instr) (t t' : State) : Prop :=
  (∀ (b : Buffer) (j : Nat), writesByte i b j = true →
    (bufferBytes t' b).getD j 0#8 = (bufferBytes t b).getD j 0#8) ∧
  (writesVlen i = true → t'.vlen = t.vlen) ∧ (writesPublen i = true → t'.publen = t.publen)

/-- Two completions of command i have the same result: the code and, where it is 0, all that is written. -/
def SameResult (i : Instr) (t t' : State) : Prop :=
  t'.err = t.err ∧ (t.err = .none → AgreeOnWritten i t t')

theorem agreeOnWritten_endCommand {i : Instr} {u u' : State} (h : AgreeOnWritten i u u') (c : ErrCode) :
    AgreeOnWritten i (endCommand c u) (endCommand c u') := by
  simpa [AgreeOnWritten] using h

theorem sameResult_success {i : Instr} {u u' : State} (h : AgreeOnWritten i u u') :
    SameResult i (endCommand .none u) (endCommand .none u') :=
  ⟨rfl, fun _ => agreeOnWritten_endCommand h _⟩

/-- An erroring end has no written bytes to compare. -/
theorem sameResult_error {c : ErrCode} (hc : c ≠ .none) (i : Instr) (s s' : State) :
    SameResult i (endCommand c s) (endCommand c s') :=
  ⟨rfl, fun hnone => absurd hnone hc⟩

/-- Two states with the same bytes in every buffer the command writes agree on what it writes. -/
theorem agreeOnWritten_of_buffers {i : Instr} {t t' : State}
    (hbuf : ∀ r ∈ writeRanges i, bufferBytes t' r.1 = bufferBytes t r.1)
    (hvlen : writesVlen i = true → t'.vlen = t.vlen)
    (hpublen : writesPublen i = true → t'.publen = t.publen) : AgreeOnWritten i t t' := by
  refine ⟨fun b j hj => ?_, hvlen, hpublen⟩
  obtain ⟨r, hr, hcond⟩ := List.any_eq_true.mp hj
  simp only [Bool.and_eq_true, beq_iff_eq] at hcond
  obtain ⟨⟨rfl, -⟩, -⟩ := hcond
  rw [hbuf r hr]

/-- A string written at a buffer's start gives its own bytes, whatever the buffer held. -/
theorem getD_overwrite_of_lt {n : Nat} (x y : Bytes n) {l : List Byte} {j : Nat} (h : j < l.length) :
    (overwrite x l).toList.getD j 0#8 = (overwrite y l).toList.getD j 0#8 := by
  simp [overwrite, List.getElem?_take, List.getElem?_append_left h]

/-- A cipher command that writes its output and no more agrees on it, whatever DOUT held. -/
theorem agreeOnWritten_writeDout {i : Instr} {l : List Byte}
    (hranges : writeRanges i = [(.dout, 0, l.length)]) (hvlen : writesVlen i = false)
    (hpublen : writesPublen i = false) (s s' : State) :
    AgreeOnWritten i (writeDout s l) (writeDout s' l) := by
  refine ⟨fun b j hj => ?_, by simp [hvlen], by simp [hpublen]⟩
  obtain ⟨rfl, hlt⟩ : Buffer.dout = b ∧ j < l.length := by simpa [writesByte, hranges] using hj
  exact getD_overwrite_of_lt s'.dout s.dout hlt

/-! ### What two states that agree on the read set share -/

/-- A range read holds the same bytes. -/
theorem slice_eq_of_readsAgree {i : Instr} {s s' : State} (h : readsAgree i s s') {b : Buffer}
    {lo hi : Nat} (hb : (b, lo, hi) ∈ readRanges s i) :
    slice (bufferBytes s' b) lo hi = slice (bufferBytes s b) lo hi := by
  obtain ⟨-, -, hranges⟩ := h
  exact hranges _ hb

/-- A buffer read in full holds the same bytes. -/
theorem bufferBytes_eq_of_readsAgree {i : Instr} {s s' : State} (h : readsAgree i s s') (b : Buffer)
    (hb : (b, 0, bufferLen b) ∈ readRanges s i) : bufferBytes s' b = bufferBytes s b := by
  simpa using slice_eq_of_readsAgree h hb

theorem vlen_eq_of_readsAgree {i : Instr} {s s' : State} (h : readsAgree i s s') (hi : i ∈ vbufCommands) :
    s'.vlen = s.vlen := by
  obtain ⟨hvlen, -, -⟩ := h
  exact hvlen (List.contains_iff_mem.mpr hi)

theorem publen_eq_of_readsAgree {s s' : State} (h : readsAgree .scryptC s s') : s'.publen = s.publen := by
  obtain ⟨-, hpublen, -⟩ := h
  exact hpublen rfl

theorem vbufRange_mem_readRanges {i : Instr} (hi : i ∈ vbufCommands) (s : State) :
    (.vbuf, 0, s.vlen.toNat) ∈ readRanges s i := by
  simp only [vbufCommands, List.mem_cons, List.not_mem_nil, or_false] at hi
  rcases hi with rfl | rfl | rfl | rfl | rfl <;> exact List.mem_cons_self

/-- The commands over VBUF see the same VBUF[0:VLEN). -/
theorem vbufBytes_eq_of_readsAgree {i : Instr} {s s' : State} (h : readsAgree i s s')
    (hi : i ∈ vbufCommands) : vbufBytes s' = vbufBytes s := by
  rw [vbufBytes, vlen_eq_of_readsAgree h hi]
  exact slice_eq_of_readsAgree h (vbufRange_mem_readRanges hi s)

/-! ### The shared operations -/

theorem sameResult_complete {i : Instr} {u u' t t' : State} (h : complete u = .next t)
    (h' : complete u' = .next t') (hu : AgreeOnWritten i u u') : SameResult i t t' := by
  cases h
  cases h'
  exact sameResult_success hu

/-- A command over VBUF whose outputs depend on VBUF[0:VLEN) alone. -/
theorem sameResult_withVbuf {i : Instr} {s s' t t' : State} {f f' : List Byte → State}
    (hi : i ∈ vbufCommands) (hreads : readsAgree i s s') (h : withVbuf s f = .next t)
    (h' : withVbuf s' f' = .next t') (hf : ∀ m, AgreeOnWritten i (f m) (f' m)) : SameResult i t t' := by
  have hvlen := vlen_eq_of_readsAgree hreads hi
  have hbytes := vbufBytes_eq_of_readsAgree hreads hi
  rcases Nat.lt_or_ge 256 s.vlen.toNat with hout | hin
  · rw [withVbuf_eq_length hout] at h
    rw [withVbuf_eq_length (hvlen ▸ hout)] at h'
    cases h
    cases h'
    exact sameResult_error (by decide) i s s'
  · rw [withVbuf_eq_next hin] at h
    rw [withVbuf_eq_next (hvlen ▸ hin), hbytes] at h'
    cases h
    cases h'
    exact sameResult_success (hf _)

/-- The cipher commands: the same output, of the length R51 lists. -/
theorem sameResult_writeDout {i : Instr} {s s' t t' : State} {l l' : List Byte}
    (h : complete (writeDout s l) = .next t) (h' : complete (writeDout s' l') = .next t') (hl : l' = l)
    (hranges : writeRanges i = [(.dout, 0, l.length)]) (hvlen : writesVlen i = false)
    (hpublen : writesPublen i = false) : SameResult i t t' := by
  subst hl
  exact sameResult_complete h h' (agreeOnWritten_writeDout hranges hvlen hpublen s s')

/-- EC_BASEMUL, in either form, sees SCA only (R330). -/
theorem sameResult_ecBasemul {i : Instr} {s s' t t' : State} {ser : Point → List Byte} {len : BitVec 7}
    (h : ecBasemul ser len s = .next t) (h' : ecBasemul ser len s' = .next t')
    (hsca : s'.sca.toList = s.sca.toList) (hranges : writeRanges i = [(.pub, 0, 65)])
    (hvlen : writesVlen i = false) : SameResult i t t' := by
  have hnat : scaNat s' = scaNat s := congrArg beNat hsca
  rcases ecBasemul_cases h with ⟨hk, rfl⟩ | ⟨hk, rfl⟩ <;>
    rcases ecBasemul_cases h' with ⟨hk', rfl⟩ | ⟨hk', rfl⟩
  · refine sameResult_success (agreeOnWritten_of_buffers ?_ (by simp [hvlen]) fun _ => rfl)
    simp [hranges, bufferBytes, hnat]
  · simp [hnat, hk] at hk'
  · simp [hnat, hk] at hk'
  · exact sameResult_error (by decide) i s s'

/-- The outputs of stages a and c are the KDF output, whatever MASK and KEY held (R216). -/
theorem agreeOnWritten_writeMaskKey {i : Instr} (hranges : writeRanges i = [(.mask, 0, 32), (.key, 0, 32)])
    (hvlen : writesVlen i = false) (hpublen : writesPublen i = false) (s s' : State) (dk : List Byte) :
    AgreeOnWritten i (writeMaskKey s dk) (writeMaskKey s' dk) :=
  agreeOnWritten_of_buffers (by simp [hranges, bufferBytes]) (by simp [hvlen]) (by simp [hpublen])

/-- SCRYPT_C sees PUBLEN, PUB[0:33), CHK and OSALT only (R222). -/
theorem sameResult_execScryptC {s s' t t' : State} (hreads : readsAgree .scryptC s s')
    (h : execScryptC s = .next t) (h' : execScryptC s' = .next t') : SameResult .scryptC t t' := by
  have hpublen := publen_eq_of_readsAgree hreads
  have hpoint : passpointBytes s' = passpointBytes s :=
    slice_eq_of_readsAgree (b := .pub) hreads (by simp [readRanges])
  have hchk : s'.chk.toList = s.chk.toList :=
    bufferBytes_eq_of_readsAgree hreads .chk (by simp [readRanges, bufferLen])
  have hosalt : s'.osalt.toList = s.osalt.toList :=
    bufferBytes_eq_of_readsAgree hreads .osalt (by simp [readRanges, bufferLen])
  by_cases hlen : s.publen.toNat = 33
  · rw [execScryptC_eq_next hlen] at h
    rw [execScryptC_eq_next (hpublen ▸ hlen), hpoint, stageCSalt, hchk, hosalt, ← stageCSalt] at h'
    cases h
    cases h'
    exact sameResult_success (agreeOnWritten_writeMaskKey rfl rfl rfl s s' _)
  · rw [execScryptC_eq_length hlen] at h
    rw [execScryptC_eq_length (hpublen ▸ hlen)] at h'
    cases h
    cases h'
    exact sameResult_error (by decide) _ s s'

/-! ### Every command -/

/-- Two completions from states that agree on the read set have the same result. -/
theorem sameResult_exec {i : Instr} {s s' t t' : State} (hreads : readsAgree i s s')
    (h : exec i s = .next t) (h' : exec i s' = .next t') : SameResult i t t' := by
  have hbuf := bufferBytes_eq_of_readsAgree hreads
  have hrange {b lo hi} := slice_eq_of_readsAgree (b := b) (lo := lo) (hi := hi) hreads
  cases i with
  | sha256 | sha256d | checksum =>
    simp only [exec, execSha256, execSha256d, execChecksum] at h h'
    refine sameResult_withVbuf (by decide) hreads h h' fun m => ?_
    exact agreeOnWritten_of_buffers (by simp [writeRanges, bufferBytes]) nofun nofun
  | scryptA =>
    have hchk : s'.chk.toList = s.chk.toList := hbuf .chk (by simp [readRanges, bufferLen])
    simp only [exec, execScryptA, hchk] at h h'
    refine sameResult_withVbuf (by decide) hreads h h' fun p => ?_
    exact agreeOnWritten_writeMaskKey rfl rfl rfl s s' _
  | scryptB =>
    have hosalt : s'.osalt.toList = s.osalt.toList := hbuf .osalt (by simp [readRanges, bufferLen])
    simp only [exec, execScryptB, hosalt] at h h'
    refine sameResult_withVbuf (by decide) hreads h h' fun p => ?_
    exact agreeOnWritten_of_buffers (by simp [writeRanges, bufferBytes]) nofun nofun
  | scryptC => exact sameResult_execScryptC hreads h h'
  | aesEnc | aesDec =>
    have hkey : s'.key.toList = s.key.toList := hbuf .key (by simp [readRanges, bufferLen])
    have hdin : dinBlock s' = dinBlock s := hrange (b := .din) (by simp [readRanges])
    refine sameResult_writeDout h h' (by rw [hkey, hdin]) ?_ rfl rfl
    simp [writeRanges]
  | encMasked32 | decMasked32 =>
    have hkey : s'.key.toList = s.key.toList := hbuf .key (by simp [readRanges, bufferLen])
    have hmask : s'.mask.toList = s.mask.toList := hbuf .mask (by simp [readRanges, bufferLen])
    have hdin : s'.din.toList = s.din.toList := hbuf .din (by simp [readRanges, bufferLen])
    refine sameResult_writeDout h h' (by rw [hkey, hmask, hdin]) ?_ rfl rfl
    simp [writeRanges, length_decryptMasked s.mask.length_eq]
  | decMasked24 =>
    have hkey : s'.key.toList = s.key.toList := hbuf .key (by simp [readRanges, bufferLen])
    have hmask : s'.mask.toList = s.mask.toList := hbuf .mask (by simp [readRanges, bufferLen])
    have hdin : dinCipher24 s' = dinCipher24 s := hrange (b := .din) (by simp [readRanges])
    refine sameResult_writeDout h h' (by rw [hkey, hmask, hdin]) ?_ rfl rfl
    simp [writeRanges, length_decryptMasked24 s.mask.length_eq]
  | ecBasemulU | ecBasemulC =>
    exact sameResult_ecBasemul h h' (hbuf .sca (by simp [readRanges, bufferLen])) rfl rfl
  | modmul =>
    have hsca : scaNat s' = scaNat s := congrArg beNat (hbuf .sca (by simp [readRanges, bufferLen]))
    have hscb : scbNat s' = scbNat s := congrArg beNat (hbuf .scb (by simp [readRanges, bufferLen]))
    refine sameResult_complete h h' (agreeOnWritten_of_buffers ?_ nofun nofun)
    simp [writeRanges, bufferBytes, hsca, hscb]
  | factorb =>
    have hseed : seedBytes s' = seedBytes s := hrange (b := .dout) (by simp [readRanges])
    refine sameResult_complete h h' (agreeOnWritten_of_buffers ?_ nofun nofun)
    simp [writeRanges, bufferBytes, hseed]
  | zeroize =>
    refine sameResult_complete h h' (agreeOnWritten_of_buffers ?_ (fun _ => rfl) fun _ => rfl)
    simp [bufferBytes_clearBuffers]

/-- Settles O46. `SameResult` names its conclusion. -/
theorem resultsDependOnlyOnTheReadSet : Obligations.ResultsDependOnlyOnTheReadSet :=
  fun _ _ _ _ _ hreads h h' => sameResult_exec hreads h h'

end Sys2Proof.Machine
end

section
/-! PROOF. The host's Wire Codec: Base58, Base58Check and the key record decode what they encode (R401,
R402). -/

namespace Sys2Proof.Machine

/-! ### Numbers and their bytes (R15) -/

/-- A byte string without a leading 0 stands for 0 only where it is empty. -/
theorem beNat_ne_zero {l : List Byte} (hne : l ≠ []) (h : l.head? ≠ some 0#8) : beNat l ≠ 0 := by
  induction l using List.reverseRecOn with
  | nil => exact absurd rfl hne
  | append_singleton l x ih =>
    rw [beNat_append_singleton]
    cases l with
    | nil =>
      have hx : x.toNat ≠ (0#8).toNat := BitVec.toNat_ne_iff_ne.mpr (by simpa using h)
      simpa [beNat] using hx
    | cons a l =>
      have := ih (List.cons_ne_nil a l) (by simpa using h)
      omega

/-- The bytes of the number that a string without a leading 0 stands for are the string. -/
theorem minimalBytes_beNat {fuel : Nat} {l : List Byte} (h : l.head? ≠ some 0#8)
    (hfuel : beNat l < 256 ^ fuel) : minimalBytes fuel (beNat l) = l := by
  induction fuel generalizing l with
  | zero =>
    by_contra hne
    have := beNat_ne_zero (Ne.symm hne) h
    omega
  | succ fuel ih =>
    cases l using List.reverseRecOn with
    | nil => rfl
    | append_singleton init x =>
      have hx := x.isLt
      have hhead : init.head? ≠ some 0#8 := by
        cases init with
        | nil => simp
        | cons a init => simpa using h
      rw [minimalBytes, if_neg (beNat_ne_zero (by simp) h)]
      rw [beNat_append_singleton] at hfuel ⊢
      rw [show (beNat init * 256 + x.toNat) / 256 = beNat init by omega, ih hhead (by omega)]
      congr 2
      apply BitVec.eq_of_toNat_eq
      rw [BitVec.toNat_ofNat]
      omega

theorem beNat_replicate_zero_append (n : Nat) (l : List Byte) :
    beNat (List.replicate n 0#8 ++ l) = beNat l := by
  induction n with
  | zero => rfl
  | succ n ih => exact ih

/-! ### Base58 (R401) -/

/-- With fuel enough, the numeral is Mathlib's list of digits, most significant first. -/
theorem base58Digits_eq_reverse_digits {fuel x : Nat} (h : x < 58 ^ fuel) :
    base58Digits fuel x = (Nat.digits 58 x).reverse := by
  induction fuel generalizing x with
  | zero => simp [base58Digits, Nat.lt_one_iff.mp h]
  | succ fuel ih =>
    rcases Nat.eq_zero_or_pos x with rfl | hpos
    · simp [base58Digits]
    · have hdiv : x / 58 < 58 ^ fuel := by rw [pow_succ] at h; omega
      rw [base58Digits, if_neg hpos.ne', ih hdiv, Nat.digits_def' (by decide) hpos, List.reverse_cons]

/-- A character of the alphabet stands for its place in it. -/
theorem findIdx?_base58Alphabet {d : Nat} (hd : d < 58) :
    (base58Alphabet.findIdx? fun x => x == base58Alphabet.getD d '1') = some d := by
  have hall : ∀ e < 58, (base58Alphabet.findIdx? fun x => x == base58Alphabet.getD e '1') = some e := by
    decide +kernel
  exact hall d hd

theorem base58Value_append_singleton {text : List Char} {n d : Nat} (h : base58Value text = some n)
    (hd : d < 58) : base58Value (text ++ [base58Alphabet.getD d '1']) = some (n * 58 + d) := by
  rw [base58Value] at h ⊢
  rw [List.foldl_append, h, List.foldl_cons, List.foldl_nil, findIdx?_base58Alphabet hd]

/-- Leading 1s add nothing to a numeral's value. -/
theorem base58Value_replicate_one (n : Nat) : base58Value (List.replicate n '1') = some 0 := by
  induction n with
  | zero => rfl
  | succ n ih =>
    rw [List.replicate_succ']
    exact base58Value_append_singleton (d := 0) ih (by decide)

/-- The numeral of a number, with leading 1s, has the number as its value. -/
theorem base58Value_digits (zeros x : Nat) :
    base58Value (List.replicate zeros '1' ++
      (Nat.digits 58 x).reverse.map fun d => base58Alphabet.getD d '1') = some x := by
  induction x using Nat.strong_induction_on with
  | h x ih =>
    rcases Nat.eq_zero_or_pos x with rfl | hpos
    · simpa using base58Value_replicate_one zeros
    · have hrest := base58Value_append_singleton (ih (x / 58) (by omega)) (Nat.mod_lt x (by decide))
      rw [Nat.digits_def' (by decide) hpos, List.reverse_cons, List.map_append, ← List.append_assoc]
      rwa [Nat.div_add_mod'] at hrest

/-- A numeral's first character is not 1, which stands for the digit 0. -/
theorem head?_digits_ne_one (x : Nat) :
    ((Nat.digits 58 x).reverse.map fun d => base58Alphabet.getD d '1').head? ≠ some '1' := by
  have hchar : ∀ d < 58, base58Alphabet.getD d '1' = '1' → d = 0 := by decide +kernel
  rw [List.head?_map, List.head?_reverse]
  intro h
  obtain ⟨d, hd, hone⟩ := Option.map_eq_some_iff.mp h
  have hlt : d < 58 := Nat.digits_lt_base (by decide) (List.mem_of_getLast? hd)
  obtain ⟨hne, rfl⟩ := List.mem_getLast?_eq_getLast hd
  exact Nat.getLast_digit_ne_zero 58 (Nat.digits_ne_nil_iff_ne_zero.mp hne) (hchar _ hlt hone)

/-- The leading copies of a character are all there are before one that differs. -/
theorem takeWhile_replicate_append {α : Type} [DecidableEq α] (a : α) (n : Nat) {l : List α}
    (h : l.head? ≠ some a) :
    (List.replicate n a ++ l).takeWhile (fun x => x == a) = List.replicate n a := by
  rw [List.takeWhile_append_of_pos (by simp)]
  cases l with
  | nil => simp
  | cons b l => rw [List.takeWhile_cons_of_neg (by simpa using h), List.append_nil]

/-- A string is its leading zeros and a string without any. -/
theorem exists_eq_replicate_zero_append (b : List Byte) :
    ∃ (n : Nat) (l : List Byte), b = List.replicate n 0#8 ++ l ∧ l.head? ≠ some 0#8 := by
  induction b with
  | nil => exact ⟨0, [], rfl, by simp⟩
  | cons x b ih =>
    by_cases hx : x = 0#8
    · obtain ⟨n, l, rfl, hl⟩ := ih
      exact ⟨n + 1, l, by rw [hx]; rfl, hl⟩
    · exact ⟨0, x :: b, rfl, by simpa using hx⟩

theorem base58Encode_replicate_zero_append (n : Nat) {l : List Byte} (h : l.head? ≠ some 0#8) :
    base58Encode (List.replicate n 0#8 ++ l) = List.replicate n '1' ++
      (Nat.digits 58 (beNat l)).reverse.map fun d => base58Alphabet.getD d '1' := by
  have hfuel : beNat (List.replicate n 0#8 ++ l) < 58 ^ (2 * (List.replicate n 0#8 ++ l).length) := by
    refine (beNat_lt _).trans_le ?_
    rw [pow_mul]
    exact Nat.pow_le_pow_left (by decide) _
  rw [base58Encode, takeWhile_replicate_append 0#8 n h, base58Digits_eq_reverse_digits hfuel,
    beNat_replicate_zero_append, List.length_replicate]

/-- Base58 decodes what it encodes (R401). -/
theorem base58Decode_base58Encode (b : List Byte) : base58Decode (base58Encode b) = some b := by
  obtain ⟨n, l, rfl, hl⟩ := exists_eq_replicate_zero_append b
  rw [base58Encode_replicate_zero_append n hl, base58Decode, base58Value_digits, Option.map_some,
    takeWhile_replicate_append '1' n (head?_digits_ne_one _), List.length_replicate,
    minimalBytes_beNat hl]
  refine (Nat.lt_base_pow_length_digits (b := 58) (by decide)).trans_le ?_
  refine (Nat.pow_le_pow_left (by decide) _).trans (Nat.pow_le_pow_right (by decide) ?_)
  simp

theorem length_base58Encode_le (b : List Byte) : (base58Encode b).length ≤ 3 * b.length := by
  have hdigits (fuel x : Nat) : (base58Digits fuel x).length ≤ fuel := by
    induction fuel generalizing x with
    | zero => simp [base58Digits]
    | succ fuel ih =>
      rw [base58Digits]
      split
      · exact Nat.zero_le _
      · simpa using ih (x / 58)
  simp only [base58Encode, List.length_append, List.length_replicate, List.length_map]
  calc _ ≤ b.length + 2 * b.length :=
        Nat.add_le_add (List.takeWhile_sublist _).length_le (hdigits _ _)
    _ = 3 * b.length := by omega

/-! ### The key record (R401, R402) -/

@[simp] theorem length_checkBytes (b : List Byte) : (checkBytes b).length = 4 := by simp [checkBytes]

theorem length_recordBody {checksum payload : List Byte} (hc : checksum.length = 4)
    (hp : payload.length = 32) (flag : Byte) : (recordBody flag checksum payload).length = 39 := by
  simp [recordBody, hc, hp]

/-- Decode gives back what Encode wrote (R401). -/
theorem decodeRecord_encodeRecord (flag : Byte) {checksum payload : List Byte}
    (hc : checksum.length = 4) (hp : payload.length = 32) :
    decodeRecord (encodeRecord flag checksum payload) = some ⟨flag, checksum, payload⟩ := by
  have hbody := length_recordBody hc hp flag
  have hok : recordBytesOk (recordBody flag checksum payload ++
      checkBytes (recordBody flag checksum payload)) = true := by
    rw [recordBytesOk, slice_append_left hbody, slice_append_right hbody (by simp)]
    simp [recordBody, hc, hp]
  simp only [encodeRecord, base58Check, decodeRecord, base58Decode_base58Encode, hok, if_true]
  simp [recordBody, slice, List.drop_append, hc, hp]

/-- A text that decodes gives a record with 4 bytes of checksum and 32 of payload (R401). -/
theorem length_of_decodeRecord {text : List Char} {r : Record} (h : decodeRecord text = some r) :
    r.checksum.length = 4 ∧ r.payload.length = 32 := by
  unfold decodeRecord at h
  split at h
  · split at h
    · rename_i b _ hok
      have hlen : b.length = 43 := by
        simp only [recordBytesOk, Bool.and_eq_true, beq_iff_eq] at hok
        obtain ⟨⟨⟨hlen, -⟩, -⟩, -⟩ := hok
        exact hlen
      cases h
      simp [hlen]
    · cases h
  · cases h

/-! ### The flag byte (R402, R406) -/

theorem flagNonEc_encryptFlag (c : Bool) : flagNonEc (encryptFlag c) = true := by cases c <;> decide

theorem flagCompressed_encryptFlag (c : Bool) : flagCompressed (encryptFlag c) = c := by
  cases c <;> decide

/-! ### Addresses (R404) -/

theorem length_address_le {pub : List Byte} {network : Network} {a : List Char}
    (h : address pub network = some a) : a.length ≤ 256 := by
  obtain ⟨v, -, rfl⟩ := Option.map_eq_some_iff.mp h
  refine (length_base58Encode_le _).trans ?_
  simp

end Sys2Proof.Machine
end

section
/-! PROOF. The host's bus operations: WRBUF fills a buffer, RDBUF reads one, and a command issued to an
idle GKB runs to its completion (R141 to R144). -/

namespace Sys2Proof.Machine

/-! ### Words and their bytes (R82, R142) -/

@[simp] theorem leWord_wordLe (b0 b1 b2 b3 : Byte) : leWord (wordLe b0 b1 b2 b3) = [b0, b1, b2, b3] := by
  have hlane {k : Nat} (hk : k < 4) := wordLe_lane (fun k => [b0, b1, b2, b3].getD k 0#8) hk
  simp only [leWord, List.cons.injEq, and_true]
  exact ⟨hlane (k := 0) (by decide), hlane (k := 1) (by decide), hlane (k := 2) (by decide),
    hlane (k := 3) (by decide)⟩

theorem getD_leWord (w : Word) {k : Nat} (hk : k < 4) :
    (leWord w).getD k 0#8 = w.extractLsb' (8 * k) 8 := by
  interval_cases k <;> rfl

/-- The words of a byte string of whole words carry its bytes. -/
theorem flatMap_leWord_wordsLe {n : Nat} {l : List Byte} (h : l.length = 4 * n) :
    (wordsLe l).flatMap leWord = l := by
  induction n generalizing l with
  | zero => rw [List.length_eq_zero_iff.mp h]; rfl
  | succ n ih =>
    match l, h with
    | b0 :: b1 :: b2 :: b3 :: rest, h =>
      have hrest : rest.length = 4 * n := by simp at h; omega
      rw [wordsLe, List.flatMap_cons, leWord_wordLe, ih hrest]
      rfl

theorem length_flatMap_leWord (ws : List Word) : (ws.flatMap leWord).length = 4 * ws.length := by
  induction ws with
  | nil => rfl
  | cons w ws ih => simp [ih]; omega

/-- WRBUF's words carry the string and zeros to the end of its last word (R142). -/
theorem flatMap_leWord_paddedWords (l : List Byte) : (paddedWords l).flatMap leWord =
    l ++ List.replicate ((4 - l.length % 4) % 4) 0#8 :=
  flatMap_leWord_wordsLe (n := (l.length + 3) / 4) (by simp; omega)

theorem length_paddedWords (l : List Byte) : (paddedWords l).length = (l.length + 3) / 4 := by
  have := congrArg List.length (flatMap_leWord_paddedWords l)
  rw [length_flatMap_leWord] at this
  simp at this
  omega

/-- Two byte strings of one length with the same bytes are the same. -/
theorem eq_of_getD {l m : List Byte} (hlen : l.length = m.length)
    (h : ∀ j < l.length, l.getD j 0#8 = m.getD j 0#8) : l = m := by
  refine List.ext_getElem hlen fun j hj hj' => ?_
  simpa [hj, hj'] using h j hj

theorem getD_take (l : List Byte) {j n : Nat} (h : j < n) :
    (l.take n).getD j 0#8 = l.getD j 0#8 := by
  rw [← slice_zero_eq_take, getD_slice l (by omega), Nat.zero_add]

/-! ### WRBUF (R142) -/

/-- From s to t one buffer is written: its first bytes are the string's, and the other buffers, the lengths
and the control registers are as before. -/
structure Wrote (b : Buffer) (l : List Byte) (s t : State) : Prop where
  bytes : (bufferBytes t b).take l.length = l
  others : ∀ c ≠ b, bufferBytes t c = bufferBytes s c
  busy : t.busy = s.busy
  vlen : t.vlen = s.vlen
  publen : t.publen = s.publen

/-- The aligned offset of word i of a buffer (R85, R90). -/
theorem alignOffset_of_toNat {off : BitVec 12} {b : Buffer} {i : Nat}
    (hoff : off.toNat = bufferBase b + 4 * i) : alignOffset off = bufferBase b + 4 * i := by
  obtain ⟨-, hbase, -⟩ := bufferBase_bounds b
  rw [alignOffset_eq, hoff]
  omega

/-- The next word's offset stays in the window while the buffer has a word there (R90). -/
theorem toNat_add_four {off : BitVec 12} {b : Buffer} {i : Nat}
    (hoff : off.toNat = bufferBase b + 4 * i) (hi : 4 * i < bufferLen b) :
    (off + 4#12).toNat = bufferBase b + 4 * (i + 1) := by
  obtain ⟨-, -, hend⟩ := bufferBase_bounds b
  rw [BitVec.toNat_add, hoff, BitVec.toNat_ofNat]
  omega

theorem memWrite_word {s : State} {off : BitVec 12} {b : Buffer} {i : Nat} (hidle : s.busy = false)
    (hoff : off.toNat = bufferBase b + 4 * i) (hi : 4 * i < bufferLen b) (w : Word) :
    memWrite s off w = writeBufferWord s b (bufferBase b + 4 * i) w := by
  have halign := alignOffset_of_toNat hoff
  have hbuf : bufferAt (alignOffset off) = some b :=
    bufferAt_of_mem (by rw [halign]; omega) (by rw [halign]; omega)
  rw [memWrite_buffer hidle hbuf, halign]

/-- Words written from word i of a buffer on: their bytes from byte 4·i on, every other byte of every
buffer as before. -/
theorem getD_writeWords {s : State} {off : BitVec 12} {b : Buffer} {i : Nat} {ws : List Word}
    (hidle : s.busy = false) (hoff : off.toNat = bufferBase b + 4 * i)
    (hfit : 4 * (i + ws.length) ≤ bufferLen b) {c : Buffer} {j : Nat} (hj : j < bufferLen c) :
    (bufferBytes (writeWords off ws s) c).getD j 0#8 =
      if c = b ∧ 4 * i ≤ j ∧ j < 4 * (i + ws.length) then (ws.flatMap leWord).getD (j - 4 * i) 0#8
      else (bufferBytes s c).getD j 0#8 := by
  induction ws generalizing s off i with
  | nil => rw [if_neg (by simp), writeWords]
  | cons w ws ih =>
    rw [List.length_cons] at hfit ⊢
    have hi : 4 * i < bufferLen b := by omega
    rw [writeWords, memWrite_word hidle hoff hi,
      ih (by simpa using hidle) (toNat_add_four hoff hi) (by omega),
      getD_writeBufferWord s w (Nat.le_add_right ..) hj, List.flatMap_cons]
    by_cases hlater : c = b ∧ 4 * (i + 1) ≤ j ∧ j < 4 * (i + 1 + ws.length)
    · rw [if_pos hlater, if_pos ⟨hlater.1, by omega, by omega⟩,
        List.getD_append_right _ _ _ _ (by rw [length_leWord]; omega), length_leWord]
      congr 1
    · rw [if_neg hlater]
      by_cases hhere : c = b ∧ 4 * i ≤ j ∧ j < 4 * i + 4
      · obtain ⟨rfl, hlo, hhi⟩ := hhere
        rw [if_pos ⟨rfl, by omega, by omega⟩, if_pos ⟨rfl, hlo, by omega⟩,
          List.getD_append _ _ _ _ (by rw [length_leWord]; omega), getD_leWord w (by omega)]
        congr 2
        omega
      · rw [if_neg fun h => hhere ⟨h.1, by omega, by omega⟩, if_neg]
        rintro ⟨hc, hlo, hhi⟩
        rcases Nat.lt_or_ge j (4 * i + 4) with hlt | hge
        · exact hhere ⟨hc, hlo, hlt⟩
        · exact hlater ⟨hc, by omega, by omega⟩

/-- Words written inside a buffer leave BUSY and the lengths. -/
theorem writeWords_control {s : State} {off : BitVec 12} {b : Buffer} {i : Nat} {ws : List Word}
    (hidle : s.busy = false) (hoff : off.toNat = bufferBase b + 4 * i)
    (hfit : 4 * (i + ws.length) ≤ bufferLen b) :
    (writeWords off ws s).busy = s.busy ∧ (writeWords off ws s).vlen = s.vlen ∧
      (writeWords off ws s).publen = s.publen := by
  induction ws generalizing s off i with
  | nil => exact ⟨rfl, rfl, rfl⟩
  | cons w ws ih =>
    rw [List.length_cons] at hfit
    have hi : 4 * i < bufferLen b := by omega
    rw [writeWords, memWrite_word hidle hoff hi]
    simpa using ih (s := writeBufferWord s b (bufferBase b + 4 * i) w) (by simpa using hidle)
      (toNat_add_four hoff hi) (by omega)

/-- A string of at most a buffer's words, written from the buffer's base. -/
theorem wrote_writeBuf {s : State} {off : BitVec 12} {b : Buffer} {l : List Byte}
    (hidle : s.busy = false) (hoff : off.toNat = bufferBase b) (hb : bufferLen b % 4 = 0)
    (hfit : l.length ≤ bufferLen b) : Wrote b l s (writeBuf off l s) := by
  have hlen := length_paddedWords l
  have hoff' : off.toNat = bufferBase b + 4 * 0 := hoff
  have hfit' : 4 * (0 + (paddedWords l).length) ≤ bufferLen b := by omega
  obtain ⟨hbusy, hvlen, hpublen⟩ := writeWords_control hidle hoff' hfit'
  have hbyte {c : Buffer} {j : Nat} := getD_writeWords hidle hoff' hfit' (c := c) (j := j)
  refine ⟨eq_of_getD (by simpa using hfit) fun j hj => ?_,
    fun c hc => eq_of_getD (by simp) fun j hj => ?_, hbusy, hvlen, hpublen⟩
  · rw [List.length_take, length_bufferBytes, Nat.min_eq_left hfit] at hj
    rw [getD_take _ hj, writeBuf, hbyte (by omega), if_pos ⟨rfl, by omega, by omega⟩,
      flatMap_leWord_paddedWords]
    exact List.getD_append _ _ _ _ hj
  · rw [length_bufferBytes] at hj
    rw [writeBuf, hbyte hj, if_neg fun h => hc h.1]

/-- A string that fills the buffer is what the buffer holds. -/
theorem Wrote.bytes_full {b : Buffer} {l : List Byte} {s t : State} (h : Wrote b l s t)
    (hl : l.length = bufferLen b) : bufferBytes t b = l := by
  have := h.bytes
  rwa [hl, ← length_bufferBytes t b, List.take_length] at this

/-- A passphrase or an address put into VBUF with its length in VLEN: VBUF[0:VLEN) is the string, and the
other buffers are as before (R405, R406). -/
theorem writePassphrase_spec {s : State} {p : List Byte} (hidle : s.busy = false)
    (hp : p.length ≤ 256) :
    vbufBytes (writePassphrase p s) = p ∧ (writePassphrase p s).vlen.toNat = p.length ∧
      (writePassphrase p s).busy = false ∧
      ∀ c ≠ .vbuf, bufferBytes (writePassphrase p s) c = bufferBytes s c := by
  have h : Wrote .vbuf p s (writeBuf 0x200 p s) := wrote_writeBuf hidle rfl rfl hp
  have hb : (writeBuf 0x200 p s).busy = false := h.busy.trans hidle
  have hv : ((BitVec.ofNat 32 p.length).extractLsb' 0 9).toNat = p.length := by
    rw [extractLsb'_zero_eq_ofNat, BitVec.toNat_ofNat, BitVec.toNat_ofNat]
    omega
  rw [writePassphrase, memWrite_vlen hb]
  refine ⟨?_, hv, hb, fun c hc => ?_⟩
  · rw [vbufBytes_eq_take, hv]
    exact h.bytes
  · rw [← h.others c hc]
    cases c <;> rfl

/-! ### RDBUF (R142) -/

theorem memRead_word {s : State} {off : BitVec 12} {b : Buffer} {i : Nat} (hidle : s.busy = false)
    (hoff : off.toNat = bufferBase b + 4 * i) (hi : 4 * i < bufferLen b) :
    memRead s off = bufferWord s b (bufferBase b + 4 * i) := by
  have halign := alignOffset_of_toNat hoff
  have hbuf : bufferAt (alignOffset off) = some b :=
    bufferAt_of_mem (by rw [halign]; omega) (by rw [halign]; omega)
  rw [memRead_buffer hidle hbuf, halign]

/-- The words read from word i of a buffer on carry its bytes, 0 past its end. -/
theorem flatMap_readWords {s : State} {off : BitVec 12} {b : Buffer} {i k : Nat} (hidle : s.busy = false)
    (hoff : off.toNat = bufferBase b + 4 * i) (hfit : 4 * (i + k) < bufferLen b + 4) :
    (readWords off k s).flatMap leWord =
      (List.range' (4 * i) (4 * k)).map fun j => (bufferBytes s b).getD j 0#8 := by
  induction k generalizing off i with
  | zero => rfl
  | succ k ih =>
    have hi : 4 * i < bufferLen b := by omega
    rw [readWords, memRead_word hidle hoff hi, List.flatMap_cons,
      ih (toNat_add_four hoff hi) (by omega), bufferWord, leWord_wordLe, Nat.add_sub_cancel_left]
    simp [List.range'_succ, Nat.mul_succ]

/-- RDBUF from a buffer's base reads its first bytes. -/
theorem readBuf_eq_take {s : State} {off : BitVec 12} {b : Buffer} {n : Nat} (hidle : s.busy = false)
    (hoff : off.toNat = bufferBase b) (hn : n ≤ bufferLen b) :
    readBuf off n s = (bufferBytes s b).take n := by
  have hwords := flatMap_readWords (k := (n + 3) / 4) hidle (i := 0) hoff (by omega)
  refine eq_of_getD (by simp [readBuf, hwords, hn]; omega) fun j hj => ?_
  rw [readBuf, List.length_take] at hj
  rw [readBuf, getD_take _ (by omega), getD_take _ (by omega), hwords]
  simp [List.getD_eq_getElem?_getD, show j < 4 * ((n + 3) / 4) by omega]

/-- RDBUF of a whole buffer. -/
theorem readBuf_full {s : State} {off : BitVec 12} {b : Buffer} {n : Nat} (hidle : s.busy = false)
    (hoff : off.toNat = bufferBase b) (hn : n = bufferLen b) : readBuf off n s = bufferBytes s b := by
  rw [readBuf_eq_take hidle hoff hn.le, List.take_of_length_le (by simp [hn])]

@[simp] theorem length_readBuf (off : BitVec 12) (n : Nat) (s : State) :
    (readBuf off n s).length = n := by
  have hwords (off : BitVec 12) (k : Nat) : (readWords off k s).length = k := by
    induction k generalizing off with
    | zero => rfl
    | succ k ih => rw [readWords, List.length_cons, ih]
  rw [readBuf, List.length_take, length_flatMap_leWord, hwords]
  omega

end Sys2Proof.Machine
end

section
/-! PROOF. A command as the host runs it, issued and waited for (R141, R143): it ends with the GKB idle, and
from an idle GKB with the command's outputs written and the rest of the buffers as before. -/

namespace Sys2Proof.Machine

/-! ### Every command run ends idle (R143, R486) -/

/-- A running command is a legal one: the engine's turn can end it (R380). -/
def EngineReady (s : State) : Prop := s.busy = true → (decode s.pend).isSome = true

theorem engineReady_of_idle {s : State} (h : s.busy = false) : EngineReady s := by simp [EngineReady, h]

theorem engineReady_congr {s t : State} (hbusy : t.busy = s.busy) (hpend : t.pend = s.pend)
    (h : EngineReady s) : EngineReady t := by
  rwa [EngineReady, hbusy, hpend]

/-- No host write makes the GKB run an illegal command, wherever it goes (R380, R382). -/
theorem engineReady_memWrite {s : State} (h : EngineReady s) (off : BitVec 12) (v : Word) :
    EngineReady (memWrite s off v) := by
  rcases memWrite_cases s off v with e | e | ⟨-, e⟩ | ⟨hidle, e | e | e | ⟨b, -, e⟩ | e⟩ <;> rw [e]
  · exact engineReady_congr rfl rfl h
  · exact engineReady_congr rfl rfl h
  · exact engineReady_congr rfl rfl h
  · cases hd : decode v with
    | none => exact engineReady_of_idle (by rw [issue_eq_illegal hd]; exact hidle)
    | some i => rw [issue_eq_accept hd]; intro _; rw [accept_pend, hd]; rfl
  · exact engineReady_congr rfl rfl h
  · exact engineReady_congr rfl rfl h
  · exact engineReady_congr (by simp) (by simp) h
  · exact h

theorem engineReady_writeBuf {s : State} (h : EngineReady s) (off : BitVec 12) (l : List Byte) :
    EngineReady (writeBuf off l s) := by
  rw [writeBuf]
  induction paddedWords l generalizing s off with
  | nil => exact h
  | cons w ws ih => exact ih (engineReady_memWrite h off w) _

theorem engineReady_writePassphrase {s : State} (h : EngineReady s) (p : List Byte) :
    EngineReady (writePassphrase p s) :=
  engineReady_memWrite (engineReady_writeBuf h _ p) _ _

/-- Every command completes from every state (R432, R435). -/
theorem exists_exec_eq_next (i : Instr) (s : State) : ∃ t, exec i s = .next t := by
  cases i with
  | sha256 | sha256d | checksum | scryptA | scryptB =>
    simp only [exec, execSha256, execSha256d, execChecksum, execScryptA, execScryptB]
    rcases Nat.lt_or_ge 256 s.vlen.toNat with hout | hin
    · exact ⟨_, withVbuf_eq_length hout⟩
    · exact ⟨_, withVbuf_eq_next hin⟩
  | scryptC =>
    by_cases h : s.publen.toNat = 33
    · exact ⟨_, execScryptC_eq_next h⟩
    · exact ⟨_, execScryptC_eq_length h⟩
  | ecBasemulU | ecBasemulC =>
    by_cases h : scaNat s = 0 ∨ curveN ≤ scaNat s
    · exact ⟨_, ecBasemul_eq_scalar h ..⟩
    · exact ⟨_, ecBasemul_eq_next (by omega) (by omega) ..⟩
  | aesEnc | aesDec | encMasked32 | decMasked32 | decMasked24 | modmul | factorb | zeroize =>
    exact ⟨_, complete_eq _⟩

theorem busy_of_exec {i : Instr} {s t : State} (h : exec i s = .next t) : t.busy = false := by
  rcases exec_endings h with ⟨u, -, rfl⟩ | ⟨-, rfl⟩ | ⟨-, rfl⟩ <;> exact endCommand_busy ..

/-- WAIT leaves the GKB idle (R143, R486). -/
theorem busy_waitDone {s : State} (h : EngineReady s) : (waitDone s).busy = false := by
  cases hb : s.busy with
  | false => rwa [waitDone_eq (engineTurn_idle hb)]
  | true =>
    obtain ⟨i, hi⟩ := Option.isSome_iff_exists.mp (h hb)
    obtain ⟨t, ht⟩ := exists_exec_eq_next i s
    rw [waitDone_eq ((engineTurn_busy hb hi).trans ht)]
    exact busy_of_exec ht

theorem busy_runCommand {s : State} (h : EngineReady s) (i : Instr) : (runCommand i s).busy = false :=
  busy_waitDone (engineReady_memWrite h 0x004 (encode i))

theorem engineReady_runCommand {s : State} (h : EngineReady s) (i : Instr) :
    EngineReady (runCommand i s) :=
  engineReady_of_idle (busy_runCommand h i)

theorem idle_runCommand {s : State} (h : s.busy = false) (i : Instr) : (runCommand i s).busy = false :=
  busy_runCommand (engineReady_of_idle h) i

/-! ### A command issued to an idle GKB (R141, R380) -/

/-- The GKB as the command's completion step finds it: LASTCMD and PEND the word, BUSY set, DONE and ERR
cleared, the buffers and lengths as they were (R380). -/
def issued (i : Instr) (s : State) : State :=
  accept { s with lastcmd := encode i, done := false, err := .none } (encode i)

@[simp] theorem bufferBytes_issued (i : Instr) (s : State) (b : Buffer) :
    bufferBytes (issued i s) b = bufferBytes s b := by
  cases b <;> rfl

theorem runCommand_eq_of_exec {i : Instr} {s t : State} (hidle : s.busy = false)
    (h : exec i (issued i s) = .next t) : runCommand i s = t :=
  runCommand_eq hidle (decode_encode i) h

theorem exec_issued {s : State} (hidle : s.busy = false) (i : Instr) :
    exec i (issued i s) = .next (runCommand i s) := by
  obtain ⟨t, ht⟩ := exists_exec_eq_next i (issued i s)
  rw [runCommand_eq_of_exec hidle ht, ht]

/-- A command leaves every buffer that R51 does not list as written by it. -/
theorem bufferBytes_runCommand {i : Instr} {s : State} (hidle : s.busy = false) {b : Buffer}
    (hb : ∀ r ∈ writeRanges i, r.1 ≠ b) : bufferBytes (runCommand i s) b = bufferBytes s b := by
  obtain ⟨hbytes, -, -⟩ := keepsUnwritten_exec (exec_issued hidle i)
  refine eq_of_getD (by simp) fun j _ => ?_
  rw [hbytes b j, bufferBytes_issued]
  exact List.any_eq_false.mpr fun r hr => by simp [hb r hr]

/-- ZEROIZE run by the host leaves every buffer and both lengths zero (R390). -/
theorem buffersZero_runCommand_zeroize {s : State} (hidle : s.busy = false) :
    buffersZero (runCommand .zeroize s) = true := by
  rw [runCommand_eq_of_exec (i := .zeroize) hidle (complete_eq _), buffersZero_endCommand,
    buffersZero_clearBuffers]

end Sys2Proof.Machine
end

section
/-! PROOF. The exits of Encrypt and Decrypt (R407, R412, R416, R478). -/

namespace Sys2Proof.Machine

/-! ### VERIFY and the two paths leave the GKB idle -/

theorem busy_verify {s : State} (h : EngineReady s) (k : List Byte) (c : Bool) (network : Network) :
    (verify k c network s).1.busy = false := by
  have hbase := busy_runCommand (engineReady_writeBuf h 0x0E0 k) (if c then .ecBasemulC else .ecBasemulU)
  unfold verify
  simp only
  generalize runCommand (if c then .ecBasemulC else .ecBasemulU) (writeBuf 0x0E0 k s) = s1 at hbase ⊢
  split
  · exact hbase
  · split
    · exact hbase
    · have haddress := engineReady_writeBuf (engineReady_of_idle hbase) 0x200
      exact busy_runCommand (engineReady_memWrite (haddress _) 0x010 _) .checksum

theorem busy_encryptPayload {s : State} (h : EngineReady s) (k p : List Byte) :
    (encryptPayload k p s).1.busy = false := by
  have hscrypt := engineReady_runCommand (engineReady_writePassphrase h p) .scryptA
  exact busy_runCommand (engineReady_writeBuf hscrypt 0x080 k) .encMasked32

theorem busy_decryptNonEc {s : State} (h : EngineReady s) (r : Record) (p : List Byte) :
    (decryptNonEc r p s).1.busy = false := by
  have hsalt := engineReady_writeBuf h 0x0C0 r.checksum
  have hscrypt := engineReady_runCommand (engineReady_writePassphrase hsalt p) .scryptA
  exact busy_runCommand (engineReady_writeBuf hscrypt 0x080 r.payload) .decMasked32

theorem busy_decryptSeed {s : State} (h : EngineReady s) (r : Record) :
    (decryptSeed r s).1.busy = false := by
  have hscrypt := engineReady_runCommand (engineReady_writeBuf h 0x0C0 r.checksum) .scryptC
  have hdin := engineReady_writeBuf hscrypt 0x080 (payloadSeed r.payload)
  have hseed := engineReady_runCommand hdin .decMasked24
  exact busy_runCommand (engineReady_runCommand hseed .factorb) .modmul

theorem busy_decryptEc {s : State} (h : EngineReady s) (r : Record) (p : List Byte) :
    (decryptEc r p s).1.busy = false := by
  have hsalt := engineReady_writeBuf h 0x0C8 (payloadOwnerSalt r.payload)
  have hscrypt := engineReady_runCommand (engineReady_writePassphrase hsalt p) .scryptB
  have hbase := busy_runCommand hscrypt .ecBasemulC
  unfold decryptEc
  simp only
  split
  · exact hbase
  · exact busy_decryptSeed (engineReady_of_idle hbase) r

/-! ### The exits (R412, R478) -/

/-- A sequence's end after a buffer write: the GKB idle and zeroized, no copy held. -/
structure EndsZeroized {α : Type} (z : Session × Except HostError α) : Prop where
  copies : z.1.copies = noCopies
  idle : z.1.gkb.busy = false
  zeroized : buffersZero z.1.gkb = true

theorem eq_of_endsZeroized {α : Type} {z : Session × Except HostError α} (h : EndsZeroized z) :
    z = ({ gkb := z.1.gkb, copies := noCopies }, z.2) := by
  rw [← h.copies]

theorem endsZeroized_zeroizeAndLeave {α : Type} (o : Except HostError α) {y : Session}
    (hidle : y.gkb.busy = false) : EndsZeroized (zeroizeAndLeave o y) :=
  ⟨rfl, idle_runCommand hidle _, buffersZero_runCommand_zeroize hidle⟩

theorem endsZeroized_failWith {α : Type} (e : HostError) {y : Session} (hidle : y.gkb.busy = false) :
    EndsZeroized (failWith (α := α) e y) :=
  endsZeroized_zeroizeAndLeave _ hidle

theorem endsZeroized_checkAndReturn (r : Record) (k : List Byte) (network : Network) {y : Session}
    (hidle : y.gkb.busy = false) : EndsZeroized (checkAndReturn r k network y) := by
  have hbusy := busy_verify (engineReady_of_idle hidle) k (flagCompressed r.flag) network
  unfold checkAndReturn
  rcases hv : verify k (flagCompressed r.flag) network y.gkb with ⟨s, (_ | _) | chk⟩ <;> rw [hv] at hbusy
  · exact endsZeroized_failWith _ hbusy
  · exact endsZeroized_failWith _ hbusy
  · dsimp only
    split
    · exact endsZeroized_zeroizeAndLeave _ hbusy
    · exact endsZeroized_failWith _ hbusy

/-- A sequence's end before its first buffer write: the GKB untouched, no copy held. -/
def EndsUntouched {α : Type} (e : HostError) (y : Session) (z : Session × Except HostError α) : Prop :=
  z = ({ gkb := y.gkb, copies := noCopies }, .error e)

/-- All the ways Decrypt of a record can end. -/
theorem decryptRecord_exits (r : Record) (p : List Byte) (network : Network) {y : Session}
    (hidle : y.gkb.busy = false) :
    EndsZeroized (decryptRecord r p network y) ∨
      EndsUntouched .inputTooLong y (decryptRecord r p network y) ∨
      EndsUntouched .unsupportedFeature y (decryptRecord r p network y) := by
  have hready := engineReady_of_idle hidle
  unfold decryptRecord
  simp only
  split
  · exact .inr (.inl rfl)
  · split
    · exact .inl (endsZeroized_checkAndReturn _ _ _ (busy_decryptNonEc hready r p))
    · split
      · exact .inr (.inr rfl)
      · have hbusy := busy_decryptEc hready r p
        rcases hec : decryptEc r p y.gkb with ⟨s, _ | k⟩ <;>
          simp only [hec, holdPassphrase_gkb] at hbusy ⊢
        · exact .inl (endsZeroized_failWith _ hbusy)
        · exact .inl (endsZeroized_checkAndReturn _ _ _ hbusy)

/-- All the ways Encrypt can end. -/
theorem encryptKey_exits (k : List Byte) (c : Bool) (p : List Byte) (network : Network) {y : Session}
    (hidle : y.gkb.busy = false) : EndsZeroized (encryptKey k c p network y) ∨
      EndsUntouched .inputTooLong y (encryptKey k c p network y) := by
  have hbusy := busy_verify (engineReady_of_idle hidle) k c network
  unfold encryptKey
  simp only
  split
  · exact .inr rfl
  · refine .inl ?_
    rcases hv : verify k c network y.gkb with ⟨s, (_ | _) | chk⟩ <;>
      simp only [hv, holdPrivateKey_gkb, holdPassphrase_gkb] at hbusy ⊢
    · exact endsZeroized_failWith _ hbusy
    · exact endsZeroized_failWith _ hbusy
    · exact endsZeroized_zeroizeAndLeave _ (busy_encryptPayload (engineReady_of_idle hbusy) k p)

/-- Settles O58: each sequence ends zeroized, or untouched with one of the early errors. -/
theorem hostSequencesEndZeroized : Obligations.HostSequencesEndZeroized := by
  intro p network y hidle
  refine ⟨fun text => ?_, fun k c => ?_⟩
  · cases hr : decodeRecord text with
    | none =>
      refine ⟨y.gkb, .error .formatError, ?_, hidle, .inr ⟨rfl, .inl rfl⟩⟩
      rw [decryptText, hr]
      rfl
    | some r =>
      rw [decryptText, hr]
      dsimp only
      rcases decryptRecord_exits r p network hidle with h | h | h
      · exact ⟨_, _, eq_of_endsZeroized h, h.idle, .inl h.zeroized⟩
      · exact ⟨y.gkb, _, h, hidle, .inr ⟨rfl, .inr (.inl rfl)⟩⟩
      · exact ⟨y.gkb, _, h, hidle, .inr ⟨rfl, .inr (.inr rfl)⟩⟩
  · rcases encryptKey_exits k c p network hidle with h | h
    · exact ⟨_, _, eq_of_endsZeroized h, h.idle, .inl h.zeroized⟩
    · exact ⟨y.gkb, _, h, hidle, .inr ⟨rfl, rfl⟩⟩

/-- Settles O59: the lot/sequence check comes before the first buffer write. -/
theorem lotSequenceRecordsAreRejected : Obligations.LotSequenceRecordsAreRejected := by
  intro r p network y hp hec hlot
  simp [decryptRecord, Nat.not_lt.mpr hp, hec, hlot]

end Sys2Proof.Machine
end

section
/-! PROOF. What each command the host runs writes (R162 to R332), and what VERIFY answers (R405). -/

namespace Sys2Proof.Machine

/-! ### The outputs of the commands run (R162, R220 to R222, R272 to R274, R330 to R332) -/

theorem execChecksum_eq_next {s : State} (hv : s.vlen.toNat ≤ 256) : execChecksum s =
    .next (endCommand .none { s with chk := bytesOf 4 (checkBytes (vbufBytes s)) }) :=
  withVbuf_eq_next hv

theorem execScryptB_eq_next {s : State} (hv : s.vlen.toNat ≤ 256) : execScryptB s =
    .next (endCommand .none { s with sca := bytesOf 32 (kdfStageB (vbufBytes s) s.osalt.toList) }) :=
  withVbuf_eq_next hv

theorem runCommand_checksum {s : State} (hidle : s.busy = false) (hv : s.vlen.toNat ≤ 256) :
    bufferBytes (runCommand .checksum s) .chk = checkBytes (vbufBytes s) := by
  rw [runCommand_eq_of_exec (i := .checksum) hidle (execChecksum_eq_next hv)]
  exact toList_bytesOf_full (length_checksumBytes _)

theorem bufferBytes_writeMaskKey {dk : List Byte} (hdk : dk.length = 64) (s : State) :
    bufferBytes (writeMaskKey s dk) .mask = slice dk 0 32 ∧
      bufferBytes (writeMaskKey s dk) .key = slice dk 32 64 :=
  ⟨toList_bytesOf_full (by simp [hdk]), toList_bytesOf_full (by simp [hdk])⟩

theorem runCommand_scryptA {s : State} (hidle : s.busy = false) (hv : s.vlen.toNat ≤ 256) :
    let dk := kdfStageA (vbufBytes s) (bufferBytes s .chk)
    bufferBytes (runCommand .scryptA s) .mask = slice dk 0 32 ∧
      bufferBytes (runCommand .scryptA s) .key = slice dk 32 64 := by
  rw [runCommand_eq_of_exec (i := .scryptA) hidle (execScryptA_eq_next hv)]
  exact bufferBytes_writeMaskKey (length_kdfStageA ..) (issued .scryptA s)

theorem runCommand_scryptB {s : State} (hidle : s.busy = false) (hv : s.vlen.toNat ≤ 256) :
    bufferBytes (runCommand .scryptB s) .sca = kdfStageB (vbufBytes s) (bufferBytes s .osalt) := by
  rw [runCommand_eq_of_exec (i := .scryptB) hidle (execScryptB_eq_next hv)]
  exact toList_bytesOf_full (length_kdfStageB ..)

theorem runCommand_scryptC {s : State} (hidle : s.busy = false) (hp : s.publen.toNat = 33) :
    let dk := kdfStageC (slice (bufferBytes s .pub) 0 33) (bufferBytes s .chk ++ bufferBytes s .osalt)
    bufferBytes (runCommand .scryptC s) .mask = slice dk 0 32 ∧
      bufferBytes (runCommand .scryptC s) .key = slice dk 32 64 := by
  rw [runCommand_eq_of_exec (i := .scryptC) hidle (execScryptC_eq_next hp)]
  exact bufferBytes_writeMaskKey (length_kdfStageC ..) (issued .scryptC s)

theorem runCommand_encMasked32 {s : State} (hidle : s.busy = false) :
    bufferBytes (runCommand .encMasked32 s) .dout =
      encryptMasked (bufferBytes s .din) (bufferBytes s .mask) (bufferBytes s .key) := by
  rw [runCommand_eq_of_exec (i := .encMasked32) hidle (complete_eq _)]
  exact toList_overwrite_full _ (length_encryptMasked ..)

theorem runCommand_decMasked32 {s : State} (hidle : s.busy = false) :
    bufferBytes (runCommand .decMasked32 s) .dout =
      decryptMasked (bufferBytes s .din) (bufferBytes s .mask) (bufferBytes s .key) := by
  rw [runCommand_eq_of_exec (i := .decMasked32) hidle (complete_eq _)]
  exact toList_overwrite_full _ (length_decryptMasked s.mask.length_eq)

/-- DEC_MASKED24 leaves the seed at the start of DOUT. -/
theorem runCommand_decMasked24 {s : State} (hidle : s.busy = false) :
    slice (bufferBytes (runCommand .decMasked24 s) .dout) 0 24 =
      decryptMasked24 (slice (bufferBytes s .din) 0 24) (bufferBytes s .mask) (bufferBytes s .key) := by
  have hlen (c k : List Byte) : (decryptMasked24 c s.mask.toList k).length = 24 :=
    length_decryptMasked24 s.mask.length_eq
  rw [runCommand_eq_of_exec (i := .decMasked24) hidle (complete_eq _)]
  have hdout := toList_overwrite s.dout ((hlen (dinCipher24 s) s.key.toList).le.trans (by decide))
  exact (congrArg (slice · 0 24) hdout).trans (slice_append_left (hlen _ _))

theorem runCommand_factorb {s : State} (hidle : s.busy = false) :
    bufferBytes (runCommand .factorb s) .scb = sha256d (slice (bufferBytes s .dout) 0 24) := by
  rw [runCommand_eq_of_exec (i := .factorb) hidle (complete_eq _)]
  exact toList_bytesOf_full (length_sha256d _)

theorem runCommand_modmul {s : State} (hidle : s.busy = false) :
    bufferBytes (runCommand .modmul s) .sca =
      natBe 32 (mulModN (beNat (bufferBytes s .sca)) (beNat (bufferBytes s .scb))) := by
  rw [runCommand_eq_of_exec (i := .modmul) hidle (complete_eq _)]
  exact toList_bytesOf_full (length_natBe ..)

/-- CHKERR branches exactly where the last command ended with an error (R144). -/
theorem commandFailed_eq (s : State) : commandFailed s = (s.err != .none) := by
  rw [commandFailed, memRead_status, statusWord]
  cases s.err <;> cases s.wbusy <;> cases s.done <;> cases s.busy <;> decide

/-- EC_BASEMUL in the form a compression flag names (R330, R405). -/
def basemul (compressed : Bool) : Instr := if compressed then .ecBasemulC else .ecBasemulU

/-- The length of a public key in the form a compression flag names (R324). -/
def publicKeyLength (compressed : Bool) : Nat := if compressed then 33 else 65

/-- EC_BASEMUL fails where SCA is out of range (R330, R434). -/
theorem commandFailed_basemul {s : State} (hidle : s.busy = false) (compressed : Bool) :
    commandFailed (runCommand (basemul compressed) s) = !scalarInRange (beNat (bufferBytes s .sca)) := by
  obtain ⟨ser, len, hexec⟩ : ∃ ser len, exec (basemul compressed) (issued (basemul compressed) s) =
      ecBasemul ser len (issued (basemul compressed) s) := by
    cases compressed <;> exact ⟨_, _, rfl⟩
  rw [exec_issued hidle] at hexec
  have hsca : scaNat (issued (basemul compressed) s) = beNat (bufferBytes s .sca) := rfl
  rcases ecBasemul_cases hexec.symm with ⟨hk, ht⟩ | ⟨hk, ht⟩ <;>
    rw [hsca] at hk <;> rw [ht, commandFailed_eq, hk] <;> rfl

/-- EC_BASEMUL leaves the public key at the start of PUB and its length in PUBLEN (R330). -/
theorem runCommand_basemul {s : State} (hidle : s.busy = false)
    (hk : scalarInRange (beNat (bufferBytes s .sca)) = true) (compressed : Bool) :
    (runCommand (basemul compressed) s).publen.toNat = publicKeyLength compressed ∧
      (bufferBytes (runCommand (basemul compressed) s) .pub).take (publicKeyLength compressed) =
        publicKey compressed (beNat (bufferBytes s .sca)) := by
  obtain ⟨hpos, hlt⟩ := (scalarInRange_iff _).mp hk
  cases compressed with
  | true =>
    rw [basemul, if_pos rfl, runCommand_eq_of_exec (i := .ecBasemulC) hidle
      (ecBasemul_eq_next (s := issued .ecBasemulC s) hpos hlt serializeCompressed 33#7)]
    exact ⟨rfl, rfl⟩
  | false =>
    rw [basemul, if_neg Bool.false_ne_true, runCommand_eq_of_exec (i := .ecBasemulU) hidle
      (ecBasemul_eq_next (s := issued .ecBasemulU s) hpos hlt serializeUncompressed 65#7)]
    exact ⟨rfl, rfl⟩

/-! ### VERIFY (R405) -/

/-- What VERIFY answers for a 32-byte key: the checksum of its address, or how it fails (R405). -/
def keyChecksum (k : List Byte) (compressed : Bool) (network : Network) :
    Except VerifyError (List Byte) :=
  if scalarInRange (beNat k) then
    match address (publicKey compressed (beNat k)) network with
    | none => .error .network
    | some a => .ok (checkBytes (ascii a))
  else .error .scalar

/-- The key's checksum is the only success of VERIFY. -/
theorem keyChecksum_eq_ok_iff {k : List Byte} {compressed : Bool} {network : Network}
    {chk : List Byte} : keyChecksum k compressed network = .ok chk ↔
      scalarInRange (beNat k) = true ∧
        ∃ a, address (publicKey compressed (beNat k)) network = some a ∧ checkBytes (ascii a) = chk := by
  unfold keyChecksum
  split
  · rename_i hk
    cases address (publicKey compressed (beNat k)) network <;> simp [hk]
  · rename_i hk
    simp [hk]

/-- The GKB after VERIFY's EC_BASEMUL (R405). -/
def verifyBase (k : List Byte) (compressed : Bool) (s : State) : State :=
  runCommand (basemul compressed) (writeBuf 0x0E0 k s)

/-- The public key as VERIFY reads it from PUB and PUBLEN (R405). -/
def readPublicKey (s : State) : List Byte := readBuf 0x140 (memRead s 0x014).toNat s

section
variable {k : List Byte} {compressed : Bool} {network : Network} {s : State}

theorem verify_of_failed (h : commandFailed (verifyBase k compressed s) = true) :
    verify k compressed network s = (verifyBase k compressed s, .error .scalar) :=
  if_pos h

theorem verify_of_no_address (h : commandFailed (verifyBase k compressed s) = false)
    (ha : address (readPublicKey (verifyBase k compressed s)) network = none) :
    verify k compressed network s = (verifyBase k compressed s, .error .network) := by
  rw [verifyBase, readPublicKey, basemul] at *
  simp only [verify, h, ha, Bool.false_eq_true, if_false]

theorem verify_of_address {a : List Char} (h : commandFailed (verifyBase k compressed s) = false)
    (ha : address (readPublicKey (verifyBase k compressed s)) network = some a) :
    verify k compressed network s =
      (runCommand .checksum (writePassphrase (ascii a) (verifyBase k compressed s)),
        .ok (readBuf 0x0C0 4
          (runCommand .checksum (writePassphrase (ascii a) (verifyBase k compressed s))))) := by
  rw [verifyBase, readPublicKey, basemul] at *
  simp only [verify, h, ha, Bool.false_eq_true, if_false, writePassphrase, ascii, List.length_map]

/-- EC_BASEMUL of a 32-byte key in SCA fails where it is out of range, and else gives its public key. -/
theorem verifyBase_spec (hidle : s.busy = false) (hk : k.length = 32) :
    (verifyBase k compressed s).busy = false ∧
      commandFailed (verifyBase k compressed s) = !scalarInRange (beNat k) ∧
      (scalarInRange (beNat k) = true →
        readPublicKey (verifyBase k compressed s) = publicKey compressed (beNat k)) := by
  have hwrote : Wrote .sca k s (writeBuf 0x0E0 k s) := wrote_writeBuf hidle rfl rfl hk.le
  have hb : (writeBuf 0x0E0 k s).busy = false := hwrote.busy.trans hidle
  have hsca : bufferBytes (writeBuf 0x0E0 k s) .sca = k := hwrote.bytes_full hk
  have hbusy := idle_runCommand hb (basemul compressed)
  have hfailed := commandFailed_basemul hb compressed
  rw [hsca] at hfailed
  refine ⟨hbusy, hfailed, fun hin => ?_⟩
  obtain ⟨hlen, hpub⟩ := runCommand_basemul hb (by rwa [hsca]) compressed
  rw [hsca] at hpub
  rw [readPublicKey, memRead_publen, BitVec.toNat_setWidth_of_le (by decide), verifyBase, hlen, ← hpub]
  exact readBuf_eq_take (b := .pub) hbusy rfl (by cases compressed <;> decide)

/-- VERIFY answers the key's checksum, and leaves it in CHK where there is one (R405). -/
theorem verify_eq_keyChecksum (hidle : s.busy = false) (hk : k.length = 32) :
    (verify k compressed network s).2 = keyChecksum k compressed network ∧
      ∀ chk, keyChecksum k compressed network = .ok chk →
        bufferBytes (verify k compressed network s).1 .chk = chk := by
  obtain ⟨hbusy, hfailed, hpub⟩ := verifyBase_spec (compressed := compressed) hidle hk
  unfold keyChecksum
  cases hin : scalarInRange (beNat k) with
  | false =>
    rw [verify_of_failed (by rw [hfailed, hin]; rfl)]
    simp
  | true =>
    have hok : commandFailed (verifyBase k compressed s) = false := by rw [hfailed, hin]; rfl
    rw [if_pos rfl, ← hpub hin]
    cases ha : address (readPublicKey (verifyBase k compressed s)) network with
    | none => simp [verify_of_no_address hok ha]
    | some a =>
      have hlen : (ascii a).length ≤ 256 := by simpa [ascii] using length_address_le ha
      obtain ⟨hvbuf, hvlen, hidle', -⟩ := writePassphrase_spec hbusy hlen
      have hchk := runCommand_checksum hidle' (hvlen.trans_le hlen)
      rw [hvbuf] at hchk
      have hread := readBuf_full (off := 0x0C0) (b := .chk) (n := 4)
        (idle_runCommand hidle' .checksum) rfl rfl
      rw [verify_of_address hok ha, hread, hchk]
      simp

end

end Sys2Proof.Machine
end

section
/-! PROOF. What Decrypt returns (R407 to R411, R414): a key only with its own checksum, and from a
well-formed record the key its passphrase recovers. -/

namespace Sys2Proof.Machine

/-! ### The checksum check (R410) -/

/-- The check returns the key it was given, and only with the record's checksum. -/
theorem checkAndReturn_eq_ok_iff {r : Record} {k : List Byte} {network : Network} {y : Session}
    {x : List Byte × Bool} (hidle : y.gkb.busy = false) (hk : k.length = 32) :
    (checkAndReturn r k network y).2 = .ok x ↔
      x = (k, flagCompressed r.flag) ∧ keyChecksum k (flagCompressed r.flag) network = .ok r.checksum := by
  obtain ⟨hsum, -⟩ :=
    verify_eq_keyChecksum (compressed := flagCompressed r.flag) (network := network) hidle hk
  unfold checkAndReturn
  rcases hv : verify k (flagCompressed r.flag) network y.gkb with ⟨s, (_ | _) | chk⟩ <;> rw [hv] at hsum
  · simp [← hsum]
  · simp [← hsum]
  · by_cases hchk : chk = r.checksum
    · simp [← hsum, hchk, eq_comm]
    · simp [← hsum, hchk]

/-! ### Every answer is a verified key (R410, R411, R414) -/

/-- The key as the record's path reads it from the GKB; none where the passfactor is out of range (R408,
R409). -/
def pathKey (r : Record) (p : List Byte) (s : State) : Option (List Byte) :=
  if flagNonEc r.flag then some (decryptNonEc r p s).2 else (decryptEc r p s).2

theorem length_of_pathKey {r : Record} {p : List Byte} {s : State} {k : List Byte}
    (h : pathKey r p s = some k) : k.length = 32 := by
  unfold pathKey at h
  split at h
  · cases h
    exact length_readBuf ..
  · simp only [decryptEc] at h
    split at h
    · cases h
    · cases h
      exact length_readBuf ..

/-- Decrypt goes past its early exits: the passphrase fits in VBUF and the record has no lot/sequence
numbers (R407). -/
def Decryptable (r : Record) (p : List Byte) : Prop :=
  p.length ≤ 256 ∧ (flagNonEc r.flag = false → flagLotSequence r.flag = false)

theorem decryptRecord_early {r : Record} {p : List Byte} (h : ¬Decryptable r p) (network : Network)
    (y : Session) : ∃ e : HostError, (decryptRecord r p network y).2 = .error e := by
  by_cases hp : p.length ≤ 256
  · obtain ⟨hec, hlot⟩ : flagNonEc r.flag = false ∧ flagLotSequence r.flag = true := by
      simpa [Decryptable, hp] using h
    exact ⟨_, (lotSequenceRecordsAreRejected r p network y hp hec hlot).1⟩
  · exact ⟨.inputTooLong, by simp [decryptRecord, Nat.not_le.mp hp]⟩

/-- Decrypt answers the key its path reads, and only where that key has the record's checksum. -/
theorem decryptRecord_eq_ok_iff {r : Record} {p : List Byte} {network : Network} {y : Session}
    {x : List Byte × Bool} (hidle : y.gkb.busy = false) (h : Decryptable r p) :
    (decryptRecord r p network y).2 = .ok x ↔ ∃ k, pathKey r p y.gkb = some k ∧
      x = (k, flagCompressed r.flag) ∧ keyChecksum k (flagCompressed r.flag) network = .ok r.checksum := by
  have hready := engineReady_of_idle hidle
  have hlen {k : List Byte} := length_of_pathKey (r := r) (p := p) (s := y.gkb) (k := k)
  obtain ⟨hp, hlot⟩ := h
  unfold decryptRecord
  unfold pathKey at hlen ⊢
  simp only [Nat.not_lt.mpr hp, if_false]
  cases hflag : flagNonEc r.flag with
  | true =>
    rw [hflag] at hlen
    simpa using checkAndReturn_eq_ok_iff (busy_decryptNonEc hready r p) (hlen rfl)
  | false =>
    rw [hflag] at hlen
    simp only [hlot hflag, Bool.false_eq_true, if_false] at hlen ⊢
    have hbusy := busy_decryptEc hready r p
    rcases hec : decryptEc r p y.gkb with ⟨s, _ | k⟩ <;>
      simp only [hec, holdPassphrase_gkb] at hbusy hlen ⊢
    · simp
    · simpa using checkAndReturn_eq_ok_iff hbusy (hlen rfl)

/-- Settles O57: an answer that is no error is a key VERIFY found the record's checksum for. -/
theorem decryptReturnsOnlyVerifiedKeys : Obligations.DecryptReturnsOnlyVerifiedKeys := by
  intro r p network y hidle
  by_cases hdec : Decryptable r p
  · cases h : (decryptRecord r p network y).2 with
    | error e => exact .inl ⟨e, rfl⟩
    | ok x =>
      obtain ⟨k, hpath, rfl, hsum⟩ := (decryptRecord_eq_ok_iff hidle hdec).mp h
      exact .inr ⟨k, _, rfl, length_of_pathKey hpath, rfl, keyChecksum_eq_ok_iff.mp hsum⟩
  · exact .inl (decryptRecord_early hdec network y)

/-! ### The KDF stages on a passphrase (R408, R409) -/

/-- Stage a on a passphrase, with the salt CHK holds: MASK and KEY are its output. -/
theorem stageA_spec {s : State} {p : List Byte} (hidle : s.busy = false) (hp : p.length ≤ 256) :
    let t := runCommand .scryptA (writePassphrase p s)
    let dk := kdfStageA p (bufferBytes s .chk)
    t.busy = false ∧ bufferBytes t .mask = slice dk 0 32 ∧ bufferBytes t .key = slice dk 32 64 := by
  obtain ⟨hvbuf, hvlen, hidle', hothers⟩ := writePassphrase_spec hidle hp
  have hout := runCommand_scryptA hidle' (hvlen.trans_le hp)
  rw [hvbuf, hothers .chk (by decide)] at hout
  exact ⟨idle_runCommand hidle' _, hout⟩

/-- Stage b on a passphrase, with the salt OSALT holds: SCA is its output, and OSALT stays. -/
theorem stageB_spec {s : State} {p : List Byte} (hidle : s.busy = false) (hp : p.length ≤ 256) :
    let t := runCommand .scryptB (writePassphrase p s)
    t.busy = false ∧ bufferBytes t .sca = kdfStageB p (bufferBytes s .osalt) ∧
      bufferBytes t .osalt = bufferBytes s .osalt := by
  obtain ⟨hvbuf, hvlen, hidle', hothers⟩ := writePassphrase_spec hidle hp
  have hout := runCommand_scryptB hidle' (hvlen.trans_le hp)
  have hosalt := hothers .osalt (by decide)
  rw [hvbuf, hosalt] at hout
  exact ⟨idle_runCommand hidle' _, hout,
    (bufferBytes_runCommand hidle' (by decide)).trans hosalt⟩

/-! ### The two paths recover the key (R408, R409) -/

/-- The non-EC path on a record of the right lengths: stage a's key (R408). -/
theorem decryptNonEc_eq {r : Record} {p : List Byte} {s : State} (hidle : s.busy = false)
    (hp : p.length ≤ 256) (hchk : r.checksum.length = 4) (hpayload : r.payload.length = 32) :
    (decryptNonEc r p s).2 = keyOfStageA r (kdfStageA p r.checksum) := by
  have hw : Wrote .chk r.checksum s (writeBuf 0x0C0 r.checksum s) := wrote_writeBuf hidle rfl rfl hchk.le
  obtain ⟨hidle1, hmask, hkey⟩ := stageA_spec (hw.busy.trans hidle) hp
  rw [hw.bytes_full hchk] at hmask hkey
  set s1 := runCommand .scryptA (writePassphrase p (writeBuf 0x0C0 r.checksum s))
  have hw1 : Wrote .din r.payload s1 (writeBuf 0x080 r.payload s1) :=
    wrote_writeBuf hidle1 rfl rfl hpayload.le
  have hidle2 := hw1.busy.trans hidle1
  have hdout := runCommand_decMasked32 hidle2
  rw [hw1.bytes_full hpayload, hw1.others .mask (by decide), hw1.others .key (by decide), hmask,
    hkey] at hdout
  exact (readBuf_full (b := .dout) (idle_runCommand hidle2 _) rfl rfl).trans hdout

/-- The GKB once the EC-multiply path has the record's seed in DOUT (R409). -/
def seedState (r : Record) (s : State) : State :=
  runCommand .decMasked24
    (writeBuf 0x080 (payloadSeed r.payload) (runCommand .scryptC (writeBuf 0x0C0 r.checksum s)))

/-- With the passpoint in PUB and the owner salt in OSALT: the seed under stage c's mask and key; SCA
stays. -/
theorem seedState_spec {r : Record} {s : State} (hidle : s.busy = false)
    (hchk : r.checksum.length = 4) (hpayload : r.payload.length = 32) (hpublen : s.publen.toNat = 33) :
    let dk := kdfStageC ((bufferBytes s .pub).take 33) (r.checksum ++ bufferBytes s .osalt)
    (seedState r s).busy = false ∧
      slice (bufferBytes (seedState r s) .dout) 0 24 =
        decryptMasked24 (payloadSeed r.payload) (slice dk 0 32) (slice dk 32 64) ∧
      bufferBytes (seedState r s) .sca = bufferBytes s .sca := by
  have hw : Wrote .chk r.checksum s (writeBuf 0x0C0 r.checksum s) := wrote_writeBuf hidle rfl rfl hchk.le
  have hidle1 := hw.busy.trans hidle
  obtain ⟨hmask, hkey⟩ := runCommand_scryptC hidle1 (by rw [hw.publen, hpublen])
  rw [hw.others .pub (by decide), hw.others .osalt (by decide), hw.bytes_full hchk] at hmask hkey
  have hsca :=
    (bufferBytes_runCommand (i := .scryptC) hidle1 (by decide)).trans (hw.others .sca (by decide))
  have hidle2 := idle_runCommand hidle1 .scryptC
  have hlen : (payloadSeed r.payload).length = 24 := by simp [payloadSeed, hpayload]
  have hw2 : Wrote .din (payloadSeed r.payload) _ (writeBuf 0x080 (payloadSeed r.payload) _) :=
    wrote_writeBuf hidle2 rfl rfl (by rw [hlen]; decide)
  have hdin := hw2.bytes
  rw [hlen, ← slice_zero_eq_take] at hdin
  have hidle3 := hw2.busy.trans hidle2
  have hseed := runCommand_decMasked24 hidle3
  rw [hdin, hw2.others .mask (by decide), hw2.others .key (by decide), hmask, hkey] at hseed
  refine ⟨idle_runCommand hidle3 _, hseed, ?_⟩
  rw [seedState, bufferBytes_runCommand hidle3 (by decide), hw2.others .sca (by decide), hsca]

/-- After the passpoint is in PUB: stage c's key, from the passfactor in SCA (R409). -/
theorem decryptSeed_eq {r : Record} {s : State} (hidle : s.busy = false)
    (hchk : r.checksum.length = 4) (hpayload : r.payload.length = 32) (hpublen : s.publen.toNat = 33) :
    (decryptSeed r s).2 = keyOfStageC r (beNat (bufferBytes s .sca))
      (kdfStageC ((bufferBytes s .pub).take 33) (r.checksum ++ bufferBytes s .osalt)) := by
  obtain ⟨hidle1, hseed, hsca⟩ := seedState_spec hidle hchk hpayload hpublen
  have hscb := runCommand_factorb hidle1
  have hidle2 := idle_runCommand hidle1 .factorb
  have hproduct := runCommand_modmul hidle2
  rw [bufferBytes_runCommand hidle1 (by decide), hsca, hscb, hseed] at hproduct
  exact (readBuf_full (b := .sca) (idle_runCommand hidle2 .modmul) rfl rfl).trans
    hproduct

/-- The GKB once the EC-multiply path has the passpoint in PUB, or the SCALAR error (R409). -/
def passpointState (r : Record) (p : List Byte) (s : State) : State :=
  runCommand .ecBasemulC
    (runCommand .scryptB (writePassphrase p (writeBuf 0x0C8 (payloadOwnerSalt r.payload) s)))

theorem decryptEc_of_failed {r : Record} {p : List Byte} {s : State}
    (h : commandFailed (passpointState r p s) = true) : (decryptEc r p s).2 = none := by
  rw [passpointState] at h
  simp only [decryptEc, h, if_true]

theorem decryptEc_of_passpoint {r : Record} {p : List Byte} {s : State}
    (h : commandFailed (passpointState r p s) = false) :
    (decryptEc r p s).2 = some (decryptSeed r (passpointState r p s)).2 := by
  rw [passpointState] at h ⊢
  simp only [decryptEc, h, Bool.false_eq_true, if_false]

/-- Stage b's passfactor is in SCA and the owner salt in OSALT; the command fails where the passfactor is
out of range, and else its point is in PUB. -/
theorem passpointState_spec {r : Record} {p : List Byte} {s : State} (hidle : s.busy = false)
    (hp : p.length ≤ 256) (hpayload : r.payload.length = 32) :
    let t := passpointState r p s
    let passfactor := beNat (kdfStageB p (payloadOwnerSalt r.payload))
    t.busy = false ∧ beNat (bufferBytes t .sca) = passfactor ∧
      bufferBytes t .osalt = payloadOwnerSalt r.payload ∧
      commandFailed t = !scalarInRange passfactor ∧
      (scalarInRange passfactor = true →
        t.publen.toNat = 33 ∧ (bufferBytes t .pub).take 33 = publicKey true passfactor) := by
  have hlen : (payloadOwnerSalt r.payload).length = 8 := by simp [payloadOwnerSalt, hpayload]
  have hw : Wrote .osalt (payloadOwnerSalt r.payload) s (writeBuf 0x0C8 (payloadOwnerSalt r.payload) s) :=
    wrote_writeBuf hidle rfl rfl hlen.le
  obtain ⟨hidle1, hsca, hosalt⟩ := stageB_spec (hw.busy.trans hidle) hp
  rw [hw.bytes_full hlen] at hsca hosalt
  have hfailed := commandFailed_basemul hidle1 true
  have hpoint := runCommand_basemul hidle1 (compressed := true)
  rw [hsca] at hfailed hpoint
  refine ⟨idle_runCommand hidle1 _, ?_, ?_, hfailed, hpoint⟩
  · rw [passpointState, bufferBytes_runCommand hidle1 (by decide), hsca]
  · rw [passpointState, bufferBytes_runCommand hidle1 (by decide), hosalt]

/-- The EC-multiply path on a record of the right lengths: stage b's passfactor, and where it is in range
stage c's key from its point (R409). -/
theorem decryptEc_eq {r : Record} {p : List Byte} {s : State} (hidle : s.busy = false)
    (hp : p.length ≤ 256) (hchk : r.checksum.length = 4) (hpayload : r.payload.length = 32) :
    let passfactor := beNat (kdfStageB p (payloadOwnerSalt r.payload))
    (decryptEc r p s).2 = if scalarInRange passfactor then
      some (keyOfStageC r passfactor
        (kdfStageC (publicKey true passfactor) (r.checksum ++ payloadOwnerSalt r.payload))) else none := by
  obtain ⟨hidle', hsca, hosalt, hfailed, hpoint⟩ := passpointState_spec (r := r) hidle hp hpayload
  dsimp only
  cases hin : scalarInRange (beNat (kdfStageB p (payloadOwnerSalt r.payload))) with
  | false =>
    rw [decryptEc_of_failed (by rw [hfailed, hin]; rfl)]
    rfl
  | true =>
    obtain ⟨hpublen, hpub⟩ := hpoint hin
    rw [decryptEc_of_passpoint (by rw [hfailed, hin]; rfl), decryptSeed_eq hidle' hchk hpayload hpublen,
      hsca, hosalt, hpub, if_pos rfl]

/-- On a record of the right lengths the path's key is the recovered one, whatever state the GKB is in
(R408, R409). -/
theorem pathKey_eq_recoveredKey {r : Record} {p : List Byte} {s : State} (hidle : s.busy = false)
    (hp : p.length ≤ 256) (hchk : r.checksum.length = 4) (hpayload : r.payload.length = 32) :
    pathKey r p s = recoveredKey r p := by
  unfold pathKey recoveredKey
  split
  · rw [decryptNonEc_eq hidle hp hchk hpayload]
  · exact decryptEc_eq hidle hp hchk hpayload

/-- Decrypt of a text returns the recovered key, and only where that key has the record's checksum. -/
theorem decryptText_eq_ok_iff {text : List Char} {r : Record} {p : List Byte} {network : Network}
    {y : Session} {k : List Byte} {c : Bool} (hr : decodeRecord text = some r) (hidle : y.gkb.busy = false)
    (h : Decryptable r p) : (decryptText text p network y).2 = .ok (k, c) ↔
      recoveredKey r p = some k ∧ c = flagCompressed r.flag ∧
        keyChecksum k c network = .ok r.checksum := by
  obtain ⟨hchk, hpayload⟩ := length_of_decodeRecord hr
  obtain ⟨hp, -⟩ := id h
  rw [decryptText, hr]
  dsimp only
  rw [decryptRecord_eq_ok_iff hidle h, pathKey_eq_recoveredKey hidle hp hchk hpayload]
  constructor
  · rintro ⟨k', hk, heq, hsum⟩
    cases heq
    exact ⟨hk, rfl, hsum⟩
  · rintro ⟨hk, rfl, hsum⟩
    exact ⟨k, hk, rfl, hsum⟩

end Sys2Proof.Machine
end

section
/-! PROOF. Encrypt's text, and Decrypt's answer to it (R406, R415). -/

namespace Sys2Proof.Machine

/-- Encrypt's payload: the key under the mask and key of stage a, salted with the checksum in CHK (R406). -/
theorem encryptPayload_eq {k p : List Byte} {s : State} (hidle : s.busy = false) (hk : k.length = 32)
    (hp : p.length ≤ 256) :
    let dk := kdfStageA p (bufferBytes s .chk)
    (encryptPayload k p s).2 = encryptMasked k (slice dk 0 32) (slice dk 32 64) := by
  obtain ⟨hidle1, hmask, hkey⟩ := stageA_spec hidle hp
  have hw : Wrote .din k _ (writeBuf 0x080 k _) := wrote_writeBuf hidle1 rfl rfl hk.le
  have hidle2 := hw.busy.trans hidle1
  have hdout := runCommand_encMasked32 hidle2
  rw [hw.bytes_full hk, hw.others .mask (by decide), hw.others .key (by decide), hmask, hkey] at hdout
  exact (readBuf_full (b := .dout) (idle_runCommand hidle2 _) rfl rfl).trans hdout

/-- The record Encrypt writes for a key with this checksum (R401, R406). -/
def encryptedRecord (k p : List Byte) (compressed : Bool) (chk : List Byte) : Record where
  flag := encryptFlag compressed
  checksum := chk
  payload := encryptMasked k (slice (kdfStageA p chk) 0 32) (slice (kdfStageA p chk) 32 64)

theorem flagNonEc_encryptedRecord (k p : List Byte) (compressed : Bool) (chk : List Byte) :
    flagNonEc (encryptedRecord k p compressed chk).flag = true :=
  flagNonEc_encryptFlag compressed

/-- Encrypt of a key that has a checksum answers the text of its record. -/
theorem encryptKey_eq_ok {k p chk : List Byte} {compressed : Bool} {network : Network} {y : Session}
    (hidle : y.gkb.busy = false) (hk : k.length = 32) (hp : p.length ≤ 256)
    (hsum : keyChecksum k compressed network = .ok chk) :
    let r := encryptedRecord k p compressed chk
    (encryptKey k compressed p network y).2 = .ok (encodeRecord r.flag r.checksum r.payload) := by
  obtain ⟨hanswer, hchk⟩ := verify_eq_keyChecksum (compressed := compressed) (network := network) hidle hk
  have hbusy := busy_verify (engineReady_of_idle hidle) k compressed network
  unfold encryptKey
  rcases hv : verify k compressed network y.gkb with ⟨s, e | c⟩ <;> rw [hv, hsum] at hanswer
  · cases hanswer
  · cases hanswer
    rw [hv] at hbusy hchk
    have hpayload := encryptPayload_eq hbusy hk hp
    rw [hchk chk hsum] at hpayload
    simp [Nat.not_lt.mpr hp, hv, hpayload, encryptedRecord]

/-- The record Encrypt writes gives the key back under the passphrase (R406, R408). -/
theorem recoveredKey_encryptedRecord {k : List Byte} (hk : k.length = 32) (p : List Byte)
    (compressed : Bool) (chk : List Byte) :
    recoveredKey (encryptedRecord k p compressed chk) p = some k := by
  rw [recoveredKey, if_pos (flagNonEc_encryptedRecord ..), keyOfStageA]
  exact congrArg some (decryptMasked_encryptMasked hk (by simp) _)

theorem decryptable_encryptedRecord {p : List Byte} (hp : p.length ≤ 256) (k : List Byte)
    (compressed : Bool) (chk : List Byte) : Decryptable (encryptedRecord k p compressed chk) p :=
  ⟨hp, fun hec => absurd hec (by simp [flagNonEc_encryptedRecord])⟩

/-- A key in range has a checksum on every known network (R404, R405). -/
theorem exists_keyChecksum {k : List Byte} {network : Network} {v : Byte}
    (hk : scalarInRange (beNat k) = true) (hv : networkVersion network = some v) (compressed : Bool) :
    ∃ chk, keyChecksum k compressed network = .ok chk ∧ chk.length = 4 :=
  ⟨_, keyChecksum_eq_ok_iff.mpr ⟨hk, _, by rw [address, hv, Option.map_some], rfl⟩, length_checkBytes _⟩

/-- Decrypt of Encrypt's text gives the key and its form back, in whatever state the two sessions begin
(R415). -/
theorem decryptText_encryptKey {k p : List Byte} {compressed : Bool} {network : Network} {v : Byte}
    {y y' : Session} (hk : k.length = 32) (hin : scalarInRange (beNat k) = true) (hp : p.length ≤ 256)
    (hv : networkVersion network = some v) (hidle : y.gkb.busy = false) (hidle' : y'.gkb.busy = false) :
    ∃ text, (encryptKey k compressed p network y).2 = .ok text ∧
      (decryptText text p network y').2 = .ok (k, compressed) := by
  obtain ⟨chk, hsum, hlen⟩ := exists_keyChecksum hin hv compressed
  refine ⟨_, encryptKey_eq_ok hidle hk hp hsum, ?_⟩
  refine (decryptText_eq_ok_iff (decodeRecord_encodeRecord _ hlen (length_encryptMasked ..)) hidle'
    (decryptable_encryptedRecord hp ..)).mpr ⟨recoveredKey_encryptedRecord hk .., ?_, hsum⟩
  exact (flagCompressed_encryptFlag compressed).symm

end Sys2Proof.Machine
end

section
/-! PROOF. The six standard vectors (R415; 95_test_vectors.md 2.7): each record, evaluated, and what Decrypt
answers to it. -/

namespace Sys2Proof.Machine

/-! ### The records, decoded -/

/-- The standard vectors, each with the record its text decodes to. -/
def standardRecords : List (StandardVector × Record) := standardVectors.zip
  [⟨0xC0, natBe 4 0xe957a24a,
      natBe 32 0xd357fafb81c71f8375a9a4d0ac02bad5f6c87c4b459fabe34c0c314b33708ec3⟩,
    ⟨0xC0, natBe 4 0x572e117e,
      natBe 32 0x7d769874f84522af53dbe8e46e5d709508a9165e0763faa5c4ab32ed4ce22b62⟩,
    ⟨0xE0, natBe 4 0x43be4179,
      natBe 32 0x70e4a0805f15a77efc738f794068d8837c2985a6945f7fe0db3f75dc305eaf7c⟩,
    ⟨0xE0, natBe 4 0x26e017d2,
      natBe 32 0x8cb3191c92d12793c7f34b630752dee3847f1b8cfde1291b81ee81ac9990ef7b⟩,
    ⟨0x00, natBe 4 0x62b5b722,
      natBe 32 0xa50dba6772cb938331a7c4ec3b84deba1749e6be9706cf334fed7df565c0c9fb⟩,
    ⟨0x00, natBe 4 0x059a5481,
      natBe 32 0x67010a95734189066214de0ae75c4e2b99b224951e2654eb8c3e3c6ee5373fe3⟩]

/-- A statement about every standard record is one about each of the six. -/
theorem forall_mem_standardRecords {P : StandardVector × Record → Prop}
    (h0 : P standardRecords[0]) (h1 : P standardRecords[1]) (h2 : P standardRecords[2])
    (h3 : P standardRecords[3]) (h4 : P standardRecords[4]) (h5 : P standardRecords[5]) :
    ∀ e ∈ standardRecords, P e := by
  rw [List.forall_mem_iff_forall_getElem]
  intro i hi
  match i, hi with
  | 0, _ => exact h0
  | 1, _ => exact h1
  | 2, _ => exact h2
  | 3, _ => exact h3
  | 4, _ => exact h4
  | 5, _ => exact h5

theorem exists_mem_standardRecords {v : StandardVector} (h : v ∈ standardVectors) :
    ∃ r, (v, r) ∈ standardRecords := by
  have hfst : standardRecords.map Prod.fst = standardVectors := rfl
  rw [← hfst] at h
  simpa using h

theorem decodeRecord_standardRecords :
    ∀ e ∈ standardRecords, decodeRecord e.1.text.toList = some e.2 := by
  apply forall_mem_standardRecords <;> decide +kernel

/-- The flags say what each vector says: the form, the mode, and no lot/sequence numbers. -/
theorem flags_standardRecords : ∀ e ∈ standardRecords, flagCompressed e.2.flag = e.1.compressed ∧
    flagNonEc e.2.flag = e.1.passfactor.isNone ∧ flagLotSequence e.2.flag = false := by decide +kernel

/-! ### The keys -/

/-- The key a record gives under the KDF outputs of its vector (R408, R409). -/
def keyOfOutputs (v : StandardVector) (r : Record) : List Byte :=
  match v.passfactor with
  | none => keyOfStageA r (natBe 32 v.mask ++ natBe 32 v.key)
  | some f => keyOfStageC r f (natBe 32 v.mask ++ natBe 32 v.key)

theorem keyOfOutputs_standardRecords :
    ∀ e ∈ standardRecords, keyOfOutputs e.1 e.2 = natBe 32 e.1.privateKey := by
  apply forall_mem_standardRecords <;> decide +kernel

theorem scalarInRange_standardRecords :
    ∀ e ∈ standardRecords, scalarInRange e.1.privateKey = true := by decide +kernel

/-! ### The addresses -/

theorem forall_mem_pair {α : Type} {P : α → Prop} {a b : α} (ha : P a) (hb : P b) :
    ∀ x ∈ [a, b], P x := by
  simp [ha, hb]

theorem address_standardVectorsUncompressed : ∀ v ∈ standardVectorsUncompressed,
    address (publicKey v.compressed v.privateKey) .bitcoinMain = some v.address.toList := by
  apply forall_mem_pair <;> decide +kernel

theorem address_standardVectorsCompressed : ∀ v ∈ standardVectorsCompressed,
    address (publicKey v.compressed v.privateKey) .bitcoinMain = some v.address.toList := by
  apply forall_mem_pair <;> decide +kernel

theorem address_standardVectorsEc : ∀ v ∈ standardVectorsEc,
    address (publicKey v.compressed v.privateKey) .bitcoinMain = some v.address.toList := by
  apply forall_mem_pair <;> decide +kernel

theorem address_standardVectors {v : StandardVector} (h : v ∈ standardVectors) :
    address (publicKey v.compressed v.privateKey) .bitcoinMain = some v.address.toList := by
  rw [standardVectors, List.mem_append, List.mem_append] at h
  rcases h with (h | h) | h
  · exact address_standardVectorsUncompressed v h
  · exact address_standardVectorsCompressed v h
  · exact address_standardVectorsEc v h

theorem checkBytes_standardRecords :
    ∀ e ∈ standardRecords, checkBytes (ascii e.1.address.toList) = e.2.checksum := by
  apply forall_mem_standardRecords <;> decide +kernel

/-! ### Decrypt (R415) -/

section
variable {v : StandardVector} {r : Record} (h : (v, r) ∈ standardRecords)
include h

theorem keyChecksum_standardRecords :
    keyChecksum (natBe 32 v.privateKey) v.compressed .bitcoinMain = .ok r.checksum := by
  have hin : scalarInRange v.privateKey = true := scalarInRange_standardRecords (v, r) h
  have hnat : beNat (natBe 32 v.privateKey) = v.privateKey :=
    beNat_natBe_32 (((scalarInRange_iff _).mp hin).2.trans curveN_lt)
  rw [keyChecksum_eq_ok_iff, hnat]
  exact ⟨hin, v.address.toList, address_standardVectors (List.of_mem_zip h).1,
    checkBytes_standardRecords (v, r) h⟩

/-- Decrypt of a published record answers its key exactly for the passphrases that recover the key. -/
theorem decryptText_standardRecords {p : List Byte} {y : Session} (hp : p.length ≤ 256)
    (hidle : y.gkb.busy = false) : (decryptText v.text.toList p .bitcoinMain y).2 =
      .ok (natBe 32 v.privateKey, v.compressed) ↔ recoveredKey r p = some (natBe 32 v.privateKey) := by
  obtain ⟨hform, -, hlot⟩ := flags_standardRecords (v, r) h
  rw [decryptText_eq_ok_iff (decodeRecord_standardRecords (v, r) h) hidle ⟨hp, fun _ => hlot⟩]
  simp only [hform, keyChecksum_standardRecords h, and_true]

end

/-- Settles O60: the round trip for every key, then the published records. -/
theorem encryptThenDecryptRoundTrips : Obligations.EncryptThenDecryptRoundTrips := by
  refine ⟨fun k p c network v y y' hk hin hp hv hidle hidle' => ?_, fun v hv => ?_⟩
  · obtain ⟨text, henc, hdec⟩ := decryptText_encryptKey hk hin hp hv hidle hidle' (compressed := c)
    exact ⟨text, _, _, Prod.ext rfl henc, Prod.ext rfl hdec⟩
  · obtain ⟨r, hr⟩ := exists_mem_standardRecords hv
    obtain ⟨hform, hmode, -⟩ := flags_standardRecords (v, r) hr
    have hkey := keyOfOutputs_standardRecords (v, r) hr
    refine ⟨r, decodeRecord_standardRecords (v, r) hr, hform, ?_, address_standardVectors hv,
      checkBytes_standardRecords (v, r) hr, fun p y hp hidle => decryptText_standardRecords hr hp hidle⟩
    unfold keyOfOutputs at hkey
    dsimp only at hmode hkey
    cases hf : v.passfactor <;> rw [hf] at hmode hkey <;> exact ⟨hmode, hkey⟩

end Sys2Proof.Machine
end

section
/-! PROOF. Errors: which completion ends with which code, what an erroring one leaves unchanged, and that no
step faults (R433 to R439). -/

namespace Sys2Proof.Machine

/-! ### No fault (R438, R439) -/

theorem engineReady_of_inv {s : State} (h : Inv s) : EngineReady s := fun hbusy =>
  (h.busy_pending hbusy).2

/-- The engine's only fault is an illegal PEND, which no accepted command leaves (R380). -/
theorem exists_engineTurn_eq_next {s : State} (h : EngineReady s) : ∃ t, engineTurn s = .next t := by
  cases hbusy : s.busy with
  | false => exact ⟨s, engineTurn_idle hbusy⟩
  | true =>
    obtain ⟨i, hi⟩ := Option.isSome_iff_exists.mp (h hbusy)
    rw [engineTurn_busy hbusy hi]
    exact exists_exec_eq_next i s

/-- No bus access faults; the engine's turn is the only event that could. -/
theorem exists_react_eq_next {s : State} (h : EngineReady s) (e : Input) :
    ∃ t, react e s = .next t := by
  cases e with
  | read off => exact ⟨_, react_read off s⟩
  | write off v => exact ⟨_, react_write off v s⟩
  | engine => exact exists_engineTurn_eq_next h
  | reset => exact ⟨_, react_reset s⟩

/-- Settles O10: of the invariant it takes only that a running command is a legal one. -/
theorem invariantStatesAlwaysStep : Obligations.InvariantStatesAlwaysStep := by
  intro s hs
  have hready := engineReady_of_inv hs
  cases hin : s.inputs with
  | nil => rw [step_nil hin]; exact exists_engineTurn_eq_next hready
  | cons e rest =>
    have hrest : EngineReady { s with inputs := rest } := engineReady_congr rfl rfl hready
    rw [step_cons hin]
    exact exists_react_eq_next hrest e

/-! ### An erroring completion writes nothing (R436) -/

/-- A completion that leaves an error ends the command on the state as it found it. -/
theorem eq_endCommand_of_exec_error {i : Instr} {s t : State} (h : exec i s = .next t)
    (herr : t.err ≠ .none) : t = endCommand t.err s := by
  rcases exec_endings h with ⟨u, -, rfl⟩ | ⟨-, rfl⟩ | ⟨-, rfl⟩
  · exact absurd (endCommand_err ..) herr
  · rfl
  · rfl

theorem sameBuffers_endCommand (c : ErrCode) (s : State) : SameBuffers s (endCommand c s) := by
  constructor <;> rfl

/-- Settles O28: the end of a command touches ERR, SCRATCH, BUSY and DONE only. -/
theorem erroringCommandsWriteNoBuffer : Obligations.ErroringCommandsWriteNoBuffer := by
  intro i s t h herr
  rw [eq_endCommand_of_exec_error h herr]
  exact ⟨sameBuffers_endCommand t.err s, memory_read_zeroed, rfl, rfl, rfl⟩

/-! ### Each code exactly where it is raised (R433, R434) -/

theorem mem_lengthCommands_of_exec {i : Instr} {s t : State} (h : exec i s = .next t)
    (herr : t.err = .length) : i ∈ lengthCommands := by
  rcases exec_endings h with ⟨u, -, rfl⟩ | ⟨hi, -⟩ | ⟨-, rfl⟩
  · cases herr
  · exact hi
  · cases herr

theorem mem_scalarCommands_of_exec {i : Instr} {s t : State} (h : exec i s = .next t)
    (herr : t.err = .scalar) : i ∈ scalarCommands := by
  rcases exec_endings h with ⟨u, -, rfl⟩ | ⟨-, rfl⟩ | ⟨hi, -⟩
  · cases herr
  · cases herr
  · exact hi

theorem withVbuf_err_length_iff {s t : State} {f : List Byte → State} (h : withVbuf s f = .next t) :
    t.err = .length ↔ 256 < s.vlen.toNat := by
  rcases withVbuf_cases h with ⟨hin, rfl⟩ | ⟨hout, rfl⟩
  · simp [hin]
  · simp [hout]

theorem execScryptC_err_length_iff {s t : State} (h : execScryptC s = .next t) :
    t.err = .length ↔ s.publen.toNat ≠ 33 := by
  rcases execScryptC_cases h with ⟨hin, rfl⟩ | ⟨hout, rfl⟩
  · simp [hin]
  · simp [hout]

theorem ecBasemul_err_scalar_iff {ser : Point → List Byte} {len : BitVec 7} {s t : State}
    (h : ecBasemul ser len s = .next t) : t.err = .scalar ↔ scaNat s = 0 ∨ curveN ≤ scaNat s := by
  have hrange := scalarInRange_iff (scaNat s)
  rcases ecBasemul_cases h with ⟨hk, rfl⟩ | ⟨hk, rfl⟩
  · obtain ⟨hpos, hlt⟩ := hrange.mp hk
    simp [Nat.ne_of_gt hpos, hlt]
  · have hout : ¬(1 ≤ scaNat s ∧ scaNat s < curveN) := by simp [← hrange, hk]
    simp only [endCommand_err, true_iff]
    omega

/-- LENGTH, by the command: those over VBUF raise it past VLEN = 256, SCRYPT_C off PUBLEN = 33 (R433). -/
theorem exec_err_length_iff {i : Instr} {s t : State} (h : exec i s = .next t) :
    t.err = .length ↔ (i ∈ vbufCommands ∧ 256 < s.vlen.toNat) ∨
      (i = .scryptC ∧ s.publen.toNat ≠ 33) := by
  cases i with
  | sha256 | sha256d | checksum | scryptA | scryptB =>
    simp only [exec, execSha256, execSha256d, execChecksum, execScryptA, execScryptB] at h
    simpa [vbufCommands] using withVbuf_err_length_iff h
  | scryptC => simpa [vbufCommands] using execScryptC_err_length_iff h
  | aesEnc | aesDec | encMasked32 | decMasked32 | decMasked24 | ecBasemulU | ecBasemulC | modmul
  | factorb | zeroize =>
    have hnot : t.err ≠ .length := fun e => absurd (mem_lengthCommands_of_exec h e) (by decide)
    simpa [vbufCommands] using hnot

/-- SCALAR, by the command: EC_BASEMUL raises it for a scalar outside [1, n), no other command at all
(R434, R435). -/
theorem exec_err_scalar_iff {i : Instr} {s t : State} (h : exec i s = .next t) :
    t.err = .scalar ↔ i ∈ scalarCommands ∧ (scaNat s = 0 ∨ curveN ≤ scaNat s) := by
  cases i with
  | ecBasemulU | ecBasemulC => simpa [scalarCommands] using ecBasemul_err_scalar_iff h
  | sha256 | sha256d | checksum | scryptA | scryptB | scryptC | aesEnc | aesDec | encMasked32
  | decMasked32 | decMasked24 | modmul | factorb | zeroize =>
    have hnot : t.err ≠ .scalar := fun e => absurd (mem_scalarCommands_of_exec h e) (by decide)
    simpa [scalarCommands] using hnot

/-- Settles O29: every command completes, and the two codes are where `exec_err_length_iff` and
`exec_err_scalar_iff` say. -/
theorem commandsEndWithTheirErrorExactly : Obligations.CommandsEndWithTheirErrorExactly := by
  intro i s
  obtain ⟨t, ht⟩ := exists_exec_eq_next i s
  obtain ⟨-, -, -, hlegal, -⟩ := completionsEndTheCommand i s t ht
  exact ⟨t, ht, exec_err_length_iff ht, exec_err_scalar_iff ht, hlegal⟩

end Sys2Proof.Machine
end

section
/-! PROOF. Reset, and the completion of every accepted command as the events that wait go by (R383, R470 to
R473, R486). -/

namespace Sys2Proof.Machine

/-! ### A reset event (R470, R472, R473) -/

theorem bufferBytes_resetGkb (s : State) (b : Buffer) :
    bufferBytes (resetGkb s) b = List.replicate (bufferLen b) 0#8 := by
  cases b <;> rfl

@[simp] theorem buffersZero_resetGkb (s : State) : buffersZero (resetGkb s) = true := by
  simp [buffersZero, bufferBytes_resetGkb, State.reset]

/-- Settles O2: the step is `resetGkb`, which takes every element but the host's side from reset. -/
theorem resetStepAbandonsTheRunningCommand : Obligations.ResetStepAbandonsTheRunningCommand := by
  intro s rest hin
  exact ⟨resetGkb { s with inputs := rest }, step_cons hin, rfl, rfl, rfl, rfl, rfl, rfl,
    buffersZero_resetGkb _, memory_read_zeroed, rfl, rfl⟩

/-! ### Each step takes one event off the queue (R9) -/

@[simp] theorem issue_inputs (s : State) (w : Word) : (issue s w).inputs = s.inputs := by
  cases hd : decode w with
  | none => rw [issue_eq_illegal hd, endIllegal_inputs]
  | some i => rw [issue_eq_accept hd, accept_inputs]

@[simp] theorem memWrite_inputs (s : State) (off : BitVec 12) (v : Word) :
    (memWrite s off v).inputs = s.inputs := by
  rcases memWrite_cases s off v with h | h | ⟨-, h⟩ | ⟨-, h | h | h | ⟨b, -, h⟩ | h⟩ <;>
    simp [h]

theorem inputs_of_exec {i : Instr} {s t : State} (h : exec i s = .next t) : t.inputs = s.inputs := by
  rcases exec_endings h with ⟨u, hkeeps, rfl⟩ | ⟨-, rfl⟩ | ⟨-, rfl⟩
  · exact hkeeps.inputs
  · rfl
  · rfl

theorem inputs_of_engineTurn {s t : State} (h : engineTurn s = .next t) : t.inputs = s.inputs := by
  rcases engineTurn_cases h with ⟨-, rfl⟩ | ⟨-, i, -, hexec⟩
  · rfl
  · exact inputs_of_exec hexec

/-- No event adds or drops an event to come; in particular a reset keeps them (log 6). -/
theorem inputs_of_react {e : Input} {s t : State} (h : react e s = .next t) :
    t.inputs = s.inputs := by
  cases e with
  | read off => cases h; rfl
  | write off v => cases h; exact memWrite_inputs s off v
  | engine => exact inputs_of_engineTurn h
  | reset => cases h; rfl

theorem inputs_of_step {s t : State} (h : step s = .next t) : t.inputs = s.inputs.tail := by
  cases hin : s.inputs with
  | nil =>
    rw [step_nil hin] at h
    rw [inputs_of_engineTurn h, hin, List.tail_nil]
  | cons e rest =>
    rw [step_cons hin] at h
    exact inputs_of_react h

/-! ### Runs -/

theorem run_zero (s : State) : Host.Core.run core 0 s = .next s := rfl

theorem run_succ_of_step {s t : State} (h : step s = .next t) (n : Nat) :
    Host.Core.run core (n + 1) s = Host.Core.run core n t := by
  have hcore : core.step s = .next t := h
  simp only [Host.Core.run, hcore]

/-! ### The accepted command's own completion (R96, R383, R486) -/

theorem SameBuffers.refl (s : State) : SameBuffers s s := by
  constructor <;> rfl

theorem SameBuffers.trans {s t u : State} (h : SameBuffers s t) (h' : SameBuffers t u) :
    SameBuffers s u where
  vlen := h'.vlen.trans h.vlen
  publen := h'.publen.trans h.publen
  key := h'.key.trans h.key
  mask := h'.mask.trans h.mask
  din := h'.din.trans h.din
  dout := h'.dout.trans h.dout
  chk := h'.chk.trans h.chk
  osalt := h'.osalt.trans h.osalt
  sca := h'.sca.trans h.sca
  scb := h'.scb.trans h.scb
  pub := h'.pub.trans h.pub
  vbuf := h'.vbuf.trans h.vbuf

/-- In `u` the command that runs in `s` is still pending, with the operands it has in `s`. -/
structure StillPending (s u : State) : Prop where
  busy : u.busy = true
  pend : u.pend = s.pend
  buffers : SameBuffers s u

theorem StillPending.trans {s t u : State} (h : StillPending s t) (h' : StillPending t u) :
    StillPending s u :=
  ⟨h'.busy, h'.pend.trans h.pend, h.buffers.trans h'.buffers⟩

theorem stillPending_read {s : State} (hbusy : s.busy = true) (rest : List Input) (w : Word) :
    StillPending s { s with inputs := rest, rdata := w } :=
  ⟨hbusy, rfl, by constructor <;> rfl⟩

/-- A write to a busy GKB reaches neither PEND nor an operand (R96). -/
theorem stillPending_memWrite {s : State} (hbusy : s.busy = true) (rest : List Input)
    (off : BitVec 12) (v : Word) : StillPending s (memWrite { s with inputs := rest } off v) := by
  obtain ⟨-, hbuffers, -, hpend, hbusy'⟩ := busyWritesAreDropped { s with inputs := rest } off v hbusy
  have hqueue : SameBuffers s { s with inputs := rest } := by constructor <;> rfl
  exact ⟨hbusy', hpend, hqueue.trans hbuffers⟩

/-- Within one step for each waiting event the command `i` that runs in `s` is about to complete: it is
still pending, and the next step is its completion. -/
def CompletionComes (i : Instr) (s : State) : Prop :=
  ∃ (n : Nat) (u : State), n ≤ s.inputs.length ∧ Host.Core.run core n s = .next u ∧
    StillPending s u ∧ step u = exec i { u with inputs := u.inputs.tail }

theorem completionComes_now {i : Instr} {s : State} (hbusy : s.busy = true)
    (h : step s = exec i { s with inputs := s.inputs.tail }) : CompletionComes i s :=
  ⟨0, s, Nat.zero_le _, run_zero s, ⟨hbusy, rfl, .refl s⟩, h⟩

/-- An event that leaves the command pending brings its completion one step nearer. -/
theorem completionComes_of_step {i : Instr} {s t : State} {e : Input} {rest : List Input}
    (hin : s.inputs = e :: rest) (hstep : step s = .next t) (hkeeps : StillPending s t)
    (h : CompletionComes i t) : CompletionComes i s := by
  obtain ⟨n, u, hn, hrun, hpending, hcompletes⟩ := h
  have hqueue : t.inputs = rest := by rw [inputs_of_step hstep, hin, List.tail_cons]
  refine ⟨n + 1, u, ?_, (run_succ_of_step hstep n).trans hrun, hkeeps.trans hpending, hcompletes⟩
  rw [hin, List.length_cons, ← hqueue]
  exact Nat.succ_le_succ hn

/-- Reads and writes of the host go by and leave the command pending, until the engine's turn comes or no
event waits. -/
theorem completionComes {i : Instr} {s : State} (hbusy : s.busy = true)
    (hpend : decode s.pend = some i) (hreset : .reset ∉ s.inputs) : CompletionComes i s := by
  induction hin : s.inputs generalizing s with
  | nil =>
    apply completionComes_now hbusy
    rw [hin, List.tail_nil, ← hin]
    exact step_nil_of_busy hbusy hpend hin
  | cons e rest ih =>
    have hrest : .reset ∉ rest := fun h => hreset (hin ▸ List.mem_cons_of_mem e h)
    have goesBy : ∀ t, step s = .next t → StillPending s t → CompletionComes i s := by
      intro t hstep hkeeps
      have hqueue : t.inputs = rest := by rw [inputs_of_step hstep, hin, List.tail_cons]
      exact completionComes_of_step hin hstep hkeeps
        (ih hkeeps.busy (hkeeps.pend ▸ hpend) (hqueue ▸ hrest) hqueue)
    cases e with
    | read off => exact goesBy _ (step_cons hin) (stillPending_read hbusy rest _)
    | write off v => exact goesBy _ (step_cons hin) (stillPending_memWrite hbusy rest off v)
    | engine =>
      apply completionComes_now hbusy
      rw [hin, List.tail_cons]
      exact step_engine_of_busy hbusy hpend hin
    | reset => exact absurd (hin ▸ List.mem_cons_self) hreset

/-! ### The return to idle (R472, R486) -/

theorem busy_of_engineTurn {s t : State} (h : engineTurn s = .next t) : t.busy = false := by
  rcases engineTurn_cases h with ⟨hidle, rfl⟩ | ⟨-, i, -, hexec⟩
  · exact hidle
  · exact busy_of_exec hexec

theorem exists_step_inv {s : State} (hs : Inv s) :
    ∃ t, step s = .next t ∧ Inv t ∧ t.inputs = s.inputs.tail := by
  obtain ⟨t, hstep⟩ := invariantStatesAlwaysStep s hs
  exact ⟨t, hstep, everyStepKeepsTheInvariant s t hs hstep, inputs_of_step hstep⟩

/-- One step for each waiting event empties the queue, and the engine's turn after them ends whatever
command then runs; the invariant, kept by every step, lets none of these steps fault. -/
theorem returnsToIdle {s : State} (hs : Inv s) :
    ∃ t, Host.Core.run core (s.inputs.length + 1) s = .next t ∧ t.inputs = [] ∧ t.busy = false ∧
      Inv t := by
  induction hin : s.inputs generalizing s with
  | nil =>
    obtain ⟨t, hstep, ht, hqueue⟩ := exists_step_inv hs
    rw [hin] at hqueue
    exact ⟨t, run_succ_of_step hstep 0, hqueue, busy_of_engineTurn (step_nil hin ▸ hstep), ht⟩
  | cons e rest ih =>
    obtain ⟨t, hstep, ht, hqueue⟩ := exists_step_inv hs
    rw [hin] at hqueue
    obtain ⟨u, hrun, hend⟩ := ih ht hqueue
    exact ⟨u, (run_succ_of_step hstep _).trans hrun, hend⟩

/-- Settles O11: `completionComes` and `returnsToIdle`, each by induction on the events that wait. -/
theorem everyAcceptedCommandCompletes : Obligations.EveryAcceptedCommandCompletes := by
  refine ⟨fun s i _ hbusy hpend hreset => ?_, fun s hs => returnsToIdle hs⟩
  obtain ⟨n, u, hn, hrun, ⟨hbusy', hpend', hbuffers⟩, hcompletes⟩ :=
    completionComes hbusy hpend hreset
  exact ⟨n, u, hn, hrun, hbusy', hpend', hbuffers, hcompletes⟩

end Sys2Proof.Machine
end
